-- ==== Sys2Proof/Word.lean ====
section
/-! DEFINITION. The block's word types and its register files of fixed size (00_scope.md R5, R9). -/

namespace Sys2Proof

/-- A command word, a response, `BADCMD` or a fricative frequency or phase: 32 bits. -/
abbrev Word := BitVec 32

/-- A frequency, a formant phase or an immediate: 16 bits. -/
abbrev Half := BitVec 16

/-- A `WAVE` register, a wavetable entry or a sample: 8 bits; entries and samples are two's complement. -/
abbrev Byte := BitVec 8

/-- Seven like things: the formant oscillator file (N_OSC, 00_scope.md R5). -/
@[ext] structure Vec7 (α : Type) where
  x0 : α
  x1 : α
  x2 : α
  x3 : α
  x4 : α
  x5 : α
  x6 : α
  deriving DecidableEq, Repr

/-- Four like things: a FrequencySet (N_CH, 00_scope.md R5). -/
@[ext] structure Vec4 (α : Type) where
  x0 : α
  x1 : α
  x2 : α
  x3 : α
  deriving DecidableEq, Repr

/-- Three like things: the fricative oscillator file (N_FOSC, 00_scope.md R5). -/
@[ext] structure Vec3 (α : Type) where
  x0 : α
  x1 : α
  x2 : α
  deriving DecidableEq, Repr

def Vec7.get {α : Type} (v : Vec7 α) : Fin 7 → α
  | 0 => v.x0
  | 1 => v.x1
  | 2 => v.x2
  | 3 => v.x3
  | 4 => v.x4
  | 5 => v.x5
  | 6 => v.x6

def Vec7.ofFn {α : Type} (f : Fin 7 → α) : Vec7 α := ⟨f 0, f 1, f 2, f 3, f 4, f 5, f 6⟩

def Vec7.set {α : Type} (v : Vec7 α) (j : Fin 7) (a : α) : Vec7 α :=
  .ofFn fun i => if i = j then a else v.get i

def Vec7.map {α β : Type} (f : α → β) (v : Vec7 α) : Vec7 β := .ofFn fun i => f (v.get i)

def Vec4.get {α : Type} (v : Vec4 α) : Fin 4 → α
  | 0 => v.x0
  | 1 => v.x1
  | 2 => v.x2
  | 3 => v.x3

def Vec4.ofFn {α : Type} (f : Fin 4 → α) : Vec4 α := ⟨f 0, f 1, f 2, f 3⟩

def Vec4.set {α : Type} (v : Vec4 α) (c : Fin 4) (a : α) : Vec4 α :=
  .ofFn fun i => if i = c then a else v.get i

def Vec3.get {α : Type} (v : Vec3 α) : Fin 3 → α
  | 0 => v.x0
  | 1 => v.x1
  | 2 => v.x2

def Vec3.ofFn {α : Type} (f : Fin 3 → α) : Vec3 α := ⟨f 0, f 1, f 2⟩

def Vec3.set {α : Type} (v : Vec3 α) (k : Fin 3) (a : α) : Vec3 α :=
  .ofFn fun i => if i = k then a else v.get i

def Vec3.map {α β : Type} (f : α → β) (v : Vec3 α) : Vec3 β := .ofFn fun i => f (v.get i)

end Sys2Proof
end

