-- ==== Sys2Proof/Syntax.lean ====
section
/-! DEFINITION. The commands as syntax (30_encoding.md R91 to R97), the host-visible registers (20_memory.md R61)
and the causes of a refusal (60_exceptions.md R231). -/

namespace Sys2Proof

/-- The excitation source of `PLAY` and `CENV`, in the order of 30_encoding.md R96. -/
inductive Source where
  | silence
  | aspiration
  | frication
  | buzz
  deriving DecidableEq, Repr

/-- The 43 implemented registers of the register space (20_memory.md R61). `stop c` is `END[c]`. -/
inductive Reg where
  | ctrl
  | status
  | sliceLen
  | badcmd
  | start (c : Fin 4)
  | stop (c : Fin 4)
  | cur (c : Fin 4)
  | oscFreq (j : Fin 7)
  | oscPhase (j : Fin 7)
  | oscWave (j : Fin 7)
  | foscFreq (k : Fin 3)
  | foscPhase (k : Fin 3)
  deriving DecidableEq, Repr

/-- Why a command word is refused (60_exceptions.md R231), in the order of the checks (R233). -/
inductive Cause where
  /-- Cause 1: `w[31:28]` is in 0x9..0xE. -/
  | reservedOpcode
  /-- Cause 2: a must-be-zero field of the word's format is not 0. -/
  | mustBeZero
  /-- Cause 3: the register number is reserved. -/
  | badRegister
  /-- Cause 4: the register does not admit this kind of write. -/
  | notPermitted
  /-- Cause 5: the value written is out of the register's range. -/
  | outOfRange
  deriving DecidableEq, Repr

/-- The ten commands of 30_encoding.md R92. A register number stays the raw 8 bits of `w[27:20]`: a word with a
reserved number is still a `WRL`, `WRH` or `RD`, which the block refuses when it executes it (R92, R99). -/
inductive Instr where
  /-- `NOP`. -/
  | nop
  /-- `WRL reg, imm16`: write the low half. -/
  | wrl (reg : BitVec 8) (imm : Half)
  /-- `WRH reg, imm16`: write the high half. -/
  | wrh (reg : BitVec 8) (imm : Half)
  /-- `RD reg`: read a register. -/
  | rd (reg : BitVec 8)
  /-- `PLAY src, count`: play a segment of `count` timeslices. -/
  | play (src : Source) (count : Half)
  /-- `CENV src`: the harmonic envelope calculator. -/
  | cenv (src : Source)
  /-- `RFORM count`: `count` samples of the formant bank. -/
  | rform (count : Half)
  /-- `RFRIC count`: `count` samples of the fricative bank. -/
  | rfric (count : Half)
  /-- `RSIL count`: `count` zero samples. -/
  | rsil (count : Half)
  /-- `RESET`. -/
  | reset
  deriving DecidableEq, Repr

end Sys2Proof
end

