-- ==== Sys2Proof/Decode.lean ====
section
/-! DEFINITION. The decoder, total on every 32-bit word, and after it the encoder (30_encoding.md R90 to R99). -/

namespace Sys2Proof

/-- What the decoder answers: a command, or the cause a word is refused with (30_encoding.md R98). -/
inductive Decoded where
  | command (i : Instr)
  | illegal (c : Cause)
  deriving DecidableEq, Repr

/-- `w[31:28]`, the opcode in every format (30_encoding.md R90). -/
def opcodeOf (w : Word) : BitVec 4 := w.extractLsb' 28 4

/-- `w[27:20]`, the register number of format R (R91). -/
def regField (w : Word) : BitVec 8 := w.extractLsb' 20 8

/-- `w[17:16]`, the excitation source of format C (R91). -/
def srcField (w : Word) : BitVec 2 := w.extractLsb' 16 2

/-- `w[15:0]`: `imm16` of format R, `count` of format C (R91). -/
def lowField (w : Word) : Half := w.extractLsb' 0 16

/-- The excitation source a 2-bit field names (R96). -/
def sourceOf (b : BitVec 2) : Source :=
  match b with
  | 0#2 => .silence
  | 1#2 => .aspiration
  | 2#2 => .frication
  | 3#2 => .buzz

/-- The 2-bit number of an excitation source (R96). -/
def sourceBits : Source → BitVec 2
  | .silence => 0#2
  | .aspiration => 1#2
  | .frication => 2#2
  | .buzz => 3#2

/-- A command whose must-be-zero field holds 0, else a refusal with cause 2 (R98 (b)). -/
def withZero {n : Nat} (zero : BitVec n) (i : Instr) : Decoded :=
  if zero = 0#n then .command i else .illegal .mustBeZero

/-- The command a word encodes, or why it is none (R92, R98). The opcode is checked first, the must-be-zero field of
its format second (R99). -/
def decode (w : Word) : Decoded :=
  match opcodeOf w with
  | 0x0#4 => withZero (w.extractLsb' 0 28) .nop
  | 0x1#4 => withZero (w.extractLsb' 16 4) (.wrl (regField w) (lowField w))
  | 0x2#4 => withZero (w.extractLsb' 16 4) (.wrh (regField w) (lowField w))
  | 0x3#4 => withZero (w.extractLsb' 0 20) (.rd (regField w))
  | 0x4#4 => withZero (w.extractLsb' 18 10) (.play (sourceOf (srcField w)) (lowField w))
  | 0x5#4 => withZero (w.extractLsb' 18 10 ++ lowField w) (.cenv (sourceOf (srcField w)))
  | 0x6#4 => withZero (w.extractLsb' 16 12) (.rform (lowField w))
  | 0x7#4 => withZero (w.extractLsb' 16 12) (.rfric (lowField w))
  | 0x8#4 => withZero (w.extractLsb' 16 12) (.rsil (lowField w))
  | 0xF#4 => withZero (w.extractLsb' 0 28) .reset
  | _ => .illegal .reservedOpcode

/-- The opcode of a command (R92). -/
def opcodeBits : Instr → BitVec 4
  | .nop => 0x0#4
  | .wrl _ _ => 0x1#4
  | .wrh _ _ => 0x2#4
  | .rd _ => 0x3#4
  | .play _ _ => 0x4#4
  | .cenv _ => 0x5#4
  | .rform _ => 0x6#4
  | .rfric _ => 0x7#4
  | .rsil _ => 0x8#4
  | .reset => 0xF#4

/-- A word of format Z (R91). -/
def formatZ (op : BitVec 4) : Word := op ++ 0#28

/-- A word of format R (R91). -/
def formatR (op : BitVec 4) (reg : BitVec 8) (imm : Half) : Word := op ++ reg ++ 0#4 ++ imm

/-- A word of format C (R91). -/
def formatC (op : BitVec 4) (src : BitVec 2) (count : Half) : Word := op ++ 0#10 ++ src ++ count

/-- The word of a command (R91, R92). -/
def encode (i : Instr) : Word :=
  match i with
  | .nop => formatZ (opcodeBits i)
  | .wrl reg imm => formatR (opcodeBits i) reg imm
  | .wrh reg imm => formatR (opcodeBits i) reg imm
  | .rd reg => formatR (opcodeBits i) reg 0#16
  | .play src count => formatC (opcodeBits i) (sourceBits src) count
  | .cenv src => formatC (opcodeBits i) (sourceBits src) 0#16
  | .rform count => formatC (opcodeBits i) 0#2 count
  | .rfric count => formatC (opcodeBits i) 0#2 count
  | .rsil count => formatC (opcodeBits i) 0#2 count
  | .reset => formatZ (opcodeBits i)

/-- The 32-bit word whose low `nbits` bits are those of `w` and whose other bits are 0. -/
def tableWord (nbits w : Nat) : Word := BitVec.ofNat 32 (w % 2 ^ nbits)

/-- The command the decoder reads from a word numbered as the opcode table numbers it. A command is one 32-bit word
with bit 0 least significant (R90), so the table's numbering is the word's own. -/
def decodeTableWord (nbits w : Nat) : Option Instr :=
  match decode (tableWord nbits w) with
  | .command i => some i
  | .illegal _ => none

end Sys2Proof
end

