-- ==== Sys2Proof/Config.lean ====
section
/-! DEFINITION. The configuration record CFG (00_scope.md R6; 92_eei_decisions.md part 3): its fields, what a valid one
is (R263 (1)), and the one this machine has, built from constants without a body. -/

namespace Sys2Proof

/-- `OUT_NARROW`: how a sum outside −128..127 becomes an 8-bit sample (41_renderer.md R143). -/
inductive Narrow where
  | wrap
  | saturate
  deriving DecidableEq, Repr, Inhabited

/-- The configuration record of 00_scope.md R6, its twelve parameters. `FRIC_FREQ_SHIFT` and `AM_SHIFT` are read by the
default laws alone (`Machine.withDefaultLaws`): a rule of a command reads `fric_freq` and `am_mix` themselves. -/
structure Cfg where
  /-- `AMP_MAX`, the maximum wavetable amplitude step. -/
  ampMax : Nat
  /-- `BUZZ_BITS`, log2 of the buzz table's size. -/
  buzzBits : Nat
  /-- `BUZZ_SHIFT`, the right shift that takes the upper bits of a formant phase. -/
  buzzShift : Nat
  /-- `FRIC_BITS`, log2 of the noise table's size. -/
  fricBits : Nat
  /-- `SLICE_LEN`, the number of samples of a timeslice. -/
  sliceLen : Nat
  /-- `BUZZ`, the buzz ROM: timbre, amplitude step, index (20_memory.md R62). -/
  buzz : BitVec 2 → BitVec 6 → Nat → Byte
  /-- `NOISE`, the noise ROM: index (20_memory.md R64). -/
  noise : Nat → Byte
  /-- `fric_freq(k, f)`, the increment of fricative oscillator `k` (42_envelope.md R169). -/
  fricFreq : Fin 3 → Half → Word
  /-- `FRIC_FREQ_SHIFT`, used by the default `fric_freq`. -/
  fricFreqShift : Nat
  /-- `am_mix(b, m)`, the amplitude-modulated voiced-buzz component (41_renderer.md R147). -/
  amMix : Byte → Byte → Int
  /-- `AM_SHIFT`, used by the default `am_mix`. -/
  amShift : Nat
  /-- `OUT_NARROW`. -/
  outNarrow : Narrow

/-- The constraints of 00_scope.md R6; a `Cfg` outside them is no configuration of this hardware (V9). -/
structure Cfg.Valid (c : Cfg) : Prop where
  ampMax_pos : 1 ≤ c.ampMax
  ampMax_le : c.ampMax ≤ 63
  buzzBits_pos : 1 ≤ c.buzzBits
  buzzBits_le : c.buzzBits ≤ 15
  buzzShift_le : c.buzzShift ≤ 16 - c.buzzBits
  fricBits_gt : c.buzzBits < c.fricBits
  fricBits_le : c.fricBits ≤ 31
  sliceLen_pos : 1 ≤ c.sliceLen
  sliceLen_le : c.sliceLen ≤ 65535
  fricFreq_zero : ∀ k, c.fricFreq k 0#16 = 0#32
  fricFreqShift_le : c.fricFreqShift ≤ 16
  amMix_zero : ∀ m, c.amMix 0#8 m = 0
  amShift_le : c.amShift ≤ 15

namespace Config

/- Every constant below has no body: nothing can evaluate it (DESIGN CHOICE, safe: notes/assumptions/1.md). Each is the
free part of one parameter; the definition after it puts the parameter's constraint around it, so that it ranges over
exactly the values R6 admits. -/

/-- `AMP_MAX − 1`. -/
opaque ampMaxPred : Fin 63
/-- `BUZZ_BITS − 1`. -/
opaque buzzBitsPred : Fin 15

/-- `BUZZ_BITS`, 1..15. -/
def buzzBits : Nat := buzzBitsPred.val + 1

/-- `BUZZ_SHIFT`, 0..16 − `BUZZ_BITS`. -/
opaque buzzShift : Fin (16 - buzzBits + 1)
/-- `FRIC_BITS − BUZZ_BITS − 1`. -/
opaque fricBitsPast : Fin (30 - buzzBits + 1)
/-- `SLICE_LEN − 1`. -/
opaque sliceLenPred : Fin 65535
/-- `BUZZ`. -/
opaque buzz : BitVec 2 → BitVec 6 → Nat → Byte
/-- `NOISE`. -/
opaque noise : Nat → Byte
/-- `fric_freq(k, f)` for `f ≠ 0`. -/
opaque fricFreqAt : Fin 3 → Half → Word
/-- `FRIC_FREQ_SHIFT`, 0..16. -/
opaque fricFreqShift : Fin 17
/-- `am_mix(b, m)` for `b ≠ 0`. -/
opaque amMixAt : Byte → Byte → Int
/-- `AM_SHIFT`, 0..15. -/
opaque amShift : Fin 16
/-- `OUT_NARROW`. -/
opaque outNarrow : Narrow

/-- The configuration of this machine: any valid one (00_scope.md R6). -/
def cfg : Cfg where
  ampMax := ampMaxPred.val + 1
  buzzBits := buzzBits
  buzzShift := buzzShift.val
  fricBits := buzzBits + 1 + fricBitsPast.val
  sliceLen := sliceLenPred.val + 1
  buzz := buzz
  noise := noise
  fricFreq := fun k f => if f = 0#16 then 0#32 else fricFreqAt k f
  fricFreqShift := fricFreqShift.val
  amMix := fun b m => if b = 0#8 then 0 else amMixAt b m
  amShift := amShift.val
  outNarrow := outNarrow

end Config

end Sys2Proof
end

