-- ==== Sys2Proof/Machine/State.lean ====
section
/-! DEFINITION. The state of the block (10_state.md), the reasons a step could stop, and the state after reset. -/

namespace Sys2Proof.Machine

open Sys2Proof

/-- A formant oscillator (10_state.md R21). `wave` is `{TIMBRE[1:0], AMP[5:0]}` (R23). -/
@[ext] structure Osc where
  freq : Half
  phase : Half
  wave : Byte
  deriving DecidableEq, Repr

/-- A fricative oscillator (10_state.md R24). -/
@[ext] structure Fosc where
  freq : Word
  phase : Word
  deriving DecidableEq, Repr

/-- `CTRL` without its reserved bits, which read as 0 and cannot be set (10_state.md R28). -/
@[ext] structure Ctrl where
  psync : Bool
  timbre : BitVec 2
  deriving DecidableEq, Repr

/-- `STATUS` without its reserved bits, which read as 0 and are never set (10_state.md R29). -/
@[ext] structure Status where
  ill : Bool
  ovf : Bool
  cause : BitVec 4
  deriving DecidableEq, Repr

/-- `SEQ.ST`, the five states of the sequencer (43_segment_player.md R196). -/
inductive SeqState where
  | idle
  | resp
  | slice
  | render
  | emit
  deriving DecidableEq, Repr

/-- `SEQ.OP`, the command being executed (10_state.md R31). -/
inductive SeqOp where
  | play
  | rform
  | rfric
  | rsil
  deriving DecidableEq, Repr

/-- The sequencer's hidden registers (10_state.md R31). -/
@[ext] structure Seq where
  /-- `SEQ.ST`. -/
  st : SeqState
  /-- `SEQ.OP`. -/
  op : SeqOp
  /-- `SEQ.SRC`, the latched source of a `PLAY`. -/
  src : Source
  /-- `SEQ.N`, the latched timeslice count of a `PLAY`. -/
  n : Half
  /-- `SEQ.I`, the index of the current timeslice. -/
  i : Half
  /-- `SEQ.CNT`, the number of samples of the current render run. -/
  cnt : Word
  /-- `SEQ.J`, the number of samples of that run the sink has accepted. -/
  j : Word
  /-- `SEQ.S[0..3]`, the start frequencies after zero substitution. -/
  s : Vec4 Half
  /-- `SEQ.E[0..3]`, the end frequencies after zero substitution. -/
  e : Vec4 Half
  /-- `SEQ.OUT`, the sample waiting for the sink. -/
  out : Byte
  /-- `SEQ.RSP`, the read response waiting for the host. -/
  rsp : Word
  deriving DecidableEq, Repr

/-- The state: everything 10_state.md R20 names, then the channels and inputs of 20_memory.md R65 to R67 and
70_reset_and_hazards.md R260, which are the model's own fields (notes/assumptions/5.md, 6.md and 7.md). `SLICE_LEN` is a
constant of the configuration and not stored (R30). -/
@[ext]
structure State where
  /-- `OSC[0..6]`. -/
  osc : Vec7 Osc
  /-- `FOSC[0..2]`. -/
  fosc : Vec3 Fosc
  /-- `START[0..3]`. -/
  start : Vec4 Half
  /-- `END[0..3]`. -/
  stop : Vec4 Half
  /-- `CUR[0..3]`. -/
  cur : Vec4 Half
  /-- `CTRL`. -/
  ctrl : Ctrl
  /-- `STATUS`. -/
  status : Status
  /-- `BADCMD`. -/
  badcmd : Word
  /-- The sequencer. -/
  seq : Seq
  /-- The command channel: the words the host offers and the block has not accepted, in order. -/
  cmds : List Word
  /-- The sample channel: the samples the sink has accepted, oldest first. -/
  samples : List Byte
  /-- The response channel: the responses the host has accepted, oldest first. -/
  responses : List Word
  /-- The input `rst`: a hard reset is requested. -/
  rst : Bool
  /-- The input `smp_ready`. -/
  smpReady : Bool
  /-- The input `rsp_ready`. -/
  rspReady : Bool
  deriving DecidableEq, Repr

/-- Why a step could stop the machine with a fault. There is no such reason and so no constructor: execution is "never
stopped, redirected or suspended" (60_exceptions.md R232), and an access never faults (40_phase_and_wavetable.md R131).
Safe: notes/assumptions/15.md. -/
inductive Fault
  deriving DecidableEq, Repr

/-- Why a step could have no meaning. -/
inductive Refusal where
  /-- An instruction without a meaning, by its mnemonic. Raised by no arm of exec: all ten commands have one. Safe. -/
  | notModelled (mnemonic : String)
  deriving DecidableEq, Repr

namespace State

def withOsc (s : State) (v : Vec7 Osc) : State := { s with osc := v }
def withFosc (s : State) (v : Vec3 Fosc) : State := { s with fosc := v }
def withStart (s : State) (v : Vec4 Half) : State := { s with start := v }
def withStop (s : State) (v : Vec4 Half) : State := { s with stop := v }
def withCur (s : State) (v : Vec4 Half) : State := { s with cur := v }
def withCtrl (s : State) (v : Ctrl) : State := { s with ctrl := v }
def withStatus (s : State) (v : Status) : State := { s with status := v }
def withBadcmd (s : State) (v : Word) : State := { s with badcmd := v }
def withSeq (s : State) (v : Seq) : State := { s with seq := v }
def withCmds (s : State) (v : List Word) : State := { s with cmds := v }
def withSamples (s : State) (v : List Byte) : State := { s with samples := v }
def withResponses (s : State) (v : List Word) : State := { s with responses := v }
def withRst (s : State) (v : Bool) : State := { s with rst := v }
def withSmpReady (s : State) (v : Bool) : State := { s with smpReady := v }
def withRspReady (s : State) (v : Bool) : State := { s with rspReady := v }

/-- The state after reset (10_state.md R33). `SEQ.ST` is IDLE as R33 says; the other SEQ registers, which R33 leaves
unspecified and no rule reads before it writes them, hold 0 (DESIGN CHOICE: notes/assumptions/4.md). The channels are
empty, the sink and the host ready, no reset requested (DESIGN CHOICE: notes/assumptions/5.md, 6.md, 7.md). -/
def reset : State where
  osc := .ofFn fun _ => ⟨0#16, 0#16, 0#8⟩
  fosc := .ofFn fun _ => ⟨0#32, 0#32⟩
  start := .ofFn fun _ => 0#16
  stop := .ofFn fun _ => 0#16
  cur := .ofFn fun _ => 0#16
  ctrl := ⟨true, 0#2⟩
  status := ⟨false, false, 0#4⟩
  badcmd := 0#32
  seq :=
    { st := .idle, op := .play, src := .silence, n := 0#16, i := 0#16, cnt := 0#32, j := 0#32
      s := .ofFn fun _ => 0#16, e := .ofFn fun _ => 0#16, out := 0#8, rsp := 0#32 }
  cmds := []
  samples := []
  responses := []
  rst := false
  smpReady := true
  rspReady := true

end State

end Sys2Proof.Machine
end

