-- ==== Sys2Proof/Machine/Operands.lean ====
section
/-! DEFINITION. Operand forms: the register map (20_memory.md R61), the checks on a register access (60_exceptions.md
R231), the fields of a `WAVE` register (10_state.md R23) and a register's value as the host reads it (44_host_access.md
R213). -/

namespace Sys2Proof.Machine

open Sys2Proof

/-! ### The register map -/

/-- The register an oscillator number 0x20 + 4j + r names: r = 0 `FREQ`, 1 `PHASE`, 2 `WAVE`, 3 reserved. -/
def oscReg (j : Fin 7) (r : Nat) : Option Reg :=
  match r with
  | 0 => some (.oscFreq j)
  | 1 => some (.oscPhase j)
  | 2 => some (.oscWave j)
  | _ => none

/-- The register a number names, or none for a reserved number (20_memory.md R61). -/
def regOf (r : BitVec 8) : Option Reg :=
  let n := r.toNat
  if n = 0x00 then some .ctrl
  else if n = 0x01 then some .status
  else if n = 0x02 then some .sliceLen
  else if n = 0x03 then some .badcmd
  else if h : 0x10 ≤ n ∧ n < 0x14 then some (.start ⟨n - 0x10, by omega⟩)
  else if h : 0x14 ≤ n ∧ n < 0x18 then some (.stop ⟨n - 0x14, by omega⟩)
  else if h : 0x18 ≤ n ∧ n < 0x1C then some (.cur ⟨n - 0x18, by omega⟩)
  else if h : 0x20 ≤ n ∧ n < 0x3C then oscReg ⟨(n - 0x20) / 4, by omega⟩ ((n - 0x20) % 4)
  else if h : 0x40 ≤ n ∧ n < 0x46 then
    if n % 2 = 0 then some (.foscFreq ⟨(n - 0x40) / 2, by omega⟩)
    else some (.foscPhase ⟨(n - 0x40) / 2, by omega⟩)
  else none

/-- The number of a register (20_memory.md R61). -/
def regNumber (r : Reg) : BitVec 8 :=
  match r with
  | .ctrl => 0x00#8
  | .status => 0x01#8
  | .sliceLen => 0x02#8
  | .badcmd => 0x03#8
  | .start c => BitVec.ofNat 8 (0x10 + c.val)
  | .stop c => BitVec.ofNat 8 (0x14 + c.val)
  | .cur c => BitVec.ofNat 8 (0x18 + c.val)
  | .oscFreq j => BitVec.ofNat 8 (0x20 + 4 * j.val)
  | .oscPhase j => BitVec.ofNat 8 (0x21 + 4 * j.val)
  | .oscWave j => BitVec.ofNat 8 (0x22 + 4 * j.val)
  | .foscFreq k => BitVec.ofNat 8 (0x40 + 2 * k.val)
  | .foscPhase k => BitVec.ofNat 8 (0x41 + 2 * k.val)

/-! ### The fields of `WAVE` -/

/-- `WAVE[7:6]`, the timbre (10_state.md R23). -/
def timbreOf (wave : Byte) : BitVec 2 := wave.extractLsb' 6 2

/-- `WAVE[5:0]`, the amplitude step (10_state.md R23). -/
def ampOf (wave : Byte) : BitVec 6 := wave.extractLsb' 0 6

/-- `{T, a}`: the `WAVE` register of timbre `T` and amplitude step `a`. -/
def packWave (timbre : BitVec 2) (a : Nat) : Byte := timbre ++ BitVec.ofNat 6 a

/-! ### The checks on a register access -/

/-- Why a `WRL` to an implemented register is refused: the access first, the value second (60_exceptions.md R233;
44_host_access.md R211). -/
def lowWriteCause (c : Cfg) (r : Reg) (imm : Half) : Option Cause :=
  match r with
  | .sliceLen => some .notPermitted
  | .badcmd => some .notPermitted
  | .ctrl => if imm.extractLsb' 3 13 = 0#13 then none else some .outOfRange
  | .status => if imm.extractLsb' 2 14 = 0#14 then none else some .outOfRange
  | .oscWave _ =>
    if imm.extractLsb' 8 8 = 0#8 ∧ (imm.extractLsb' 0 6).toNat ≤ c.ampMax then none else some .outOfRange
  | .start _ => none
  | .stop _ => none
  | .cur _ => none
  | .oscFreq _ => none
  | .oscPhase _ => none
  | .foscFreq _ => none
  | .foscPhase _ => none

/-- Why a `WRH` to an implemented register is refused: only the 32-bit `FOSC` registers have a writable high half
(44_host_access.md R212). -/
def highWriteCause (r : Reg) : Option Cause :=
  match r with
  | .foscFreq _ => none
  | .foscPhase _ => none
  | .ctrl => some .notPermitted
  | .status => some .notPermitted
  | .sliceLen => some .notPermitted
  | .badcmd => some .notPermitted
  | .start _ => some .notPermitted
  | .stop _ => some .notPermitted
  | .cur _ => some .notPermitted
  | .oscFreq _ => some .notPermitted
  | .oscPhase _ => some .notPermitted
  | .oscWave _ => some .notPermitted

/-- Why a command, once decoded, is refused, if it is: checks (3) to (5) of 60_exceptions.md R233. Only `WRL`, `WRH` and
`RD` can be (R231). -/
def refusalOf (c : Cfg) (i : Instr) : Option Cause :=
  match i with
  | .nop => none
  | .wrl reg imm =>
    match regOf reg with
    | none => some .badRegister
    | some r => lowWriteCause c r imm
  | .wrh reg _ =>
    match regOf reg with
    | none => some .badRegister
    | some r => highWriteCause r
  | .rd reg =>
    match regOf reg with
    | none => some .badRegister
    | some _ => none
  | .play _ _ => none
  | .cenv _ => none
  | .rform _ => none
  | .rfric _ => none
  | .rsil _ => none
  | .reset => none

/-! ### Reading a register -/

/-- `CTRL` as 32 bits: `TIMBRE` in bits 2:1, `PSYNC` in bit 0, the rest 0 (10_state.md R28; DEDUCED, safe:
notes/assumptions/9.md). -/
def ctrlWord (k : Ctrl) : Word := 0#29 ++ k.timbre ++ BitVec.ofBool k.psync

/-- `STATUS` as 32 bits: `{CAUSE, 0b00, OVF, ILL}` in bits 7:0, the rest 0 (10_state.md R29; 44_host_access.md R213). -/
def statusWord (k : Status) : Word :=
  0#24 ++ k.cause ++ 0#2 ++ BitVec.ofBool k.ovf ++ BitVec.ofBool k.ill

/-- `x[i]`: the whole register, zero-extended to 32 bits (44_host_access.md R213). `SLICE_LEN` is the configuration's
constant (10_state.md R30). -/
def readReg (c : Cfg) (r : Reg) (s : State) : Word :=
  match r with
  | .ctrl => ctrlWord s.ctrl
  | .status => statusWord s.status
  | .sliceLen => BitVec.ofNat 32 c.sliceLen
  | .badcmd => s.badcmd
  | .start k => (s.start.get k).setWidth 32
  | .stop k => (s.stop.get k).setWidth 32
  | .cur k => (s.cur.get k).setWidth 32
  | .oscFreq j => (s.osc.get j).freq.setWidth 32
  | .oscPhase j => (s.osc.get j).phase.setWidth 32
  | .oscWave j => (s.osc.get j).wave.setWidth 32
  | .foscFreq k => (s.fosc.get k).freq
  | .foscPhase k => (s.fosc.get k).phase

end Sys2Proof.Machine
end

