-- ==== Sys2Proof/Machine/Flags.lean ====
section
/-! DEFINITION. The flags of `STATUS` (10_state.md R29): the narrowing of a sum to 8 bits with its overflow
(41_renderer.md R143), and the codes recorded in `CAUSE` (60_exceptions.md R231). -/

namespace Sys2Proof.Machine

open Sys2Proof

/-- The code of a cause (60_exceptions.md R231). -/
def causeCode (k : Cause) : BitVec 4 :=
  match k with
  | .reservedOpcode => 1#4
  | .mustBeZero => 2#4
  | .badRegister => 3#4
  | .notPermitted => 4#4
  | .outOfRange => 5#4

/-- The exact sum does not fit a signed byte (R143). -/
def overflows (acc : Int) : Bool := decide (acc < -128) || decide (127 < acc)

/-- `narrow8`'s value (R143): the sum itself, or its narrowing by `OUT_NARROW`. -/
def narrow8 (c : Cfg) (acc : Int) : Byte :=
  if overflows acc then
    match c.outNarrow with
    | .wrap => BitVec.ofInt 8 ((acc + 128) % 256 - 128)
    | .saturate => BitVec.ofInt 8 (max (-128) (min 127 acc))
  else BitVec.ofInt 8 acc

/-- `narrow8`'s flag (R143): `STATUS.OVF` is set when the sum does not fit, and never cleared here. -/
def noteOverflow (acc : Int) (s : State) : State :=
  if overflows acc then s.withStatus { s.status with ovf := true } else s

/-- `STATUS.OVF <- 0` (44_host_access.md R211). -/
def clearOvf (s : State) : State := s.withStatus { s.status with ovf := false }

end Sys2Proof.Machine
end

