-- ==== Sys2Proof/Machine/Ops.lean ====
section
/-! DEFINITION. The operations every command shares: the three channels (20_memory.md R65 to R67), the error action and
its return (60_exceptions.md R232, R239), the two resets (70_reset_and_hazards.md R260). -/

namespace Sys2Proof.Machine

open Sys2Proof

/-! ### The channels -/

/-- `emit(s)` with a sink that accepts: the sample is handed over, once, behind all earlier ones (20_memory.md R66). -/
def emit (x : Byte) (s : State) : State := s.withSamples (s.samples ++ [x])

/-- The host accepts a response: it stands behind all earlier ones (20_memory.md R67). -/
def deliver (v : Word) (s : State) : State := s.withResponses (s.responses ++ [v])

/-- `respond(v)` (20_memory.md R67): the response is delivered at once if the host is ready, else it is placed in
`SEQ.RSP` and waits in state RESP (43_segment_player.md R197; DESIGN CHOICE: notes/assumptions/3.md). -/
def respond (v : Word) (s : State) : State :=
  if s.rspReady then deliver v s else s.withSeq { s.seq with rsp := v, st := .resp }

/-! ### The error action -/

/-- The record of a refusal: the first since `ILL` was last 0 is kept (60_exceptions.md R232). -/
def recordIll (k : Cause) (w : Word) (s : State) : State :=
  if s.status.ill then s
  else (s.withStatus { s.status with ill := true, cause := causeCode k }).withBadcmd w

/-- `raise ILL(cause)` for the word `w` (60_exceptions.md R232): the refusal is recorded, the word discarded, and a word
with opcode 0x3 still gets a response, of 0. -/
def raiseIll (k : Cause) (w : Word) (s : State) : State :=
  if opcodeOf w = 0x3#4 then respond 0#32 (recordIll k w s) else recordIll k w s

/-- The return from the error: `ILL <- 0`, `CAUSE <- 0`, `BADCMD <- 0` (60_exceptions.md R239; 44_host_access.md R211). -/
def clearIll (s : State) : State :=
  (s.withStatus { s.status with ill := false, cause := 0#4 }).withBadcmd 0#32

/-! ### Reset -/

/-- Every piece of state at its reset value (10_state.md R33). What is not the block's, the channels' record and the
inputs, stays (70_reset_and_hazards.md R261, R262). -/
def resetBlock (s : State) : State :=
  { State.reset with
    cmds := s.cmds, samples := s.samples, responses := s.responses
    rst := s.rst, smpReady := s.smpReady, rspReady := s.rspReady }

/-- The hard reset as an atomic event (70_reset_and_hazards.md R260, R261; V10): the command in progress is abandoned, a
pending sample or response dropped, an offered word not consumed, and the request served (DESIGN CHOICE:
notes/assumptions/7.md). -/
def hardReset (s : State) : State := (resetBlock s).withRst false

end Sys2Proof.Machine
end

