-- ==== Sys2Proof/Machine/HostAccess.lean ====
section
/-! DEFINITION. The host access commands `NOP`, `WRL`, `WRH`, `RD` and `RESET` (44_host_access.md). -/

namespace Sys2Proof.Machine

open Sys2Proof

/-- `WRL STATUS`: write-one-to-clear (R211; 10_state.md R29). -/
def clearStatus (imm : Half) (s : State) : State :=
  let s1 := if imm.getLsbD 0 then clearIll s else s
  if imm.getLsbD 1 then clearOvf s1 else s1

/-- The write of a `WRL` that no check refused (R211). `SLICE_LEN` and `BADCMD` are read-only: nothing is written. -/
def writeLow (r : Reg) (imm : Half) (s : State) : State :=
  match r with
  | .ctrl => s.withCtrl ⟨imm.getLsbD 0, imm.extractLsb' 1 2⟩
  | .status => clearStatus imm s
  | .sliceLen => s
  | .badcmd => s
  | .start c => s.withStart (s.start.set c imm)
  | .stop c => s.withStop (s.stop.set c imm)
  | .cur c => s.withCur (s.cur.set c imm)
  | .oscFreq j => s.withOsc (s.osc.set j { s.osc.get j with freq := imm })
  | .oscPhase j => s.withOsc (s.osc.set j { s.osc.get j with phase := imm })
  | .oscWave j => s.withOsc (s.osc.set j { s.osc.get j with wave := imm.extractLsb' 0 8 })
  | .foscFreq k =>
    s.withFosc (s.fosc.set k { s.fosc.get k with freq := (s.fosc.get k).freq.extractLsb' 16 16 ++ imm })
  | .foscPhase k =>
    s.withFosc (s.fosc.set k { s.fosc.get k with phase := (s.fosc.get k).phase.extractLsb' 16 16 ++ imm })

/-- The write of a `WRH` that no check refused (R212): only the 32-bit `FOSC` registers have a high half to write. -/
def writeHigh (r : Reg) (imm : Half) (s : State) : State :=
  match r with
  | .foscFreq k =>
    s.withFosc (s.fosc.set k { s.fosc.get k with freq := imm ++ (s.fosc.get k).freq.extractLsb' 0 16 })
  | .foscPhase k =>
    s.withFosc (s.fosc.set k { s.fosc.get k with phase := imm ++ (s.fosc.get k).phase.extractLsb' 0 16 })
  | .ctrl => s
  | .status => s
  | .sliceLen => s
  | .badcmd => s
  | .start _ => s
  | .stop _ => s
  | .cur _ => s
  | .oscFreq _ => s
  | .oscPhase _ => s
  | .oscWave _ => s

/-- `WRL reg, imm16` (R211). The word refused is the command's own, its encoding (DEDUCED, safe:
notes/assumptions/10.md). -/
def wrl (c : Cfg) (reg : BitVec 8) (imm : Half) (s : State) : State :=
  match regOf reg with
  | none => raiseIll .badRegister (encode (.wrl reg imm)) s
  | some r =>
    match lowWriteCause c r imm with
    | some k => raiseIll k (encode (.wrl reg imm)) s
    | none => writeLow r imm s

/-- `WRH reg, imm16` (R212). -/
def wrh (reg : BitVec 8) (imm : Half) (s : State) : State :=
  match regOf reg with
  | none => raiseIll .badRegister (encode (.wrh reg imm)) s
  | some r =>
    match highWriteCause r with
    | some k => raiseIll k (encode (.wrh reg imm)) s
    | none => writeHigh r imm s

/-- `RD reg` (R213). A refused `RD` answers 0, once (20_memory.md R67): the error action sends it
(DEDUCED, safe: notes/assumptions/13.md). -/
def rd (c : Cfg) (reg : BitVec 8) (s : State) : State :=
  match regOf reg with
  | none => raiseIll .badRegister (encode (.rd reg)) s
  | some r => respond (readReg c r s) s

/-- `NOP` (R210). -/
def execNop (s : State) : Host.Outcome State Fault Refusal := .next s

/-- `WRL reg, imm16` (R211). -/
def execWrl (reg : BitVec 8) (imm : Half) (s : State) : Host.Outcome State Fault Refusal :=
  .next (wrl Config.cfg reg imm s)

/-- `WRH reg, imm16` (R212). -/
def execWrh (reg : BitVec 8) (imm : Half) (s : State) : Host.Outcome State Fault Refusal :=
  .next (wrh reg imm s)

/-- `RD reg` (R213). -/
def execRd (reg : BitVec 8) (s : State) : Host.Outcome State Fault Refusal :=
  .next (rd Config.cfg reg s)

/-- `RESET` (R214): every piece of state takes its reset value; what is outside the block stays. -/
def execReset (s : State) : Host.Outcome State Fault Refusal := .next (resetBlock s)

end Sys2Proof.Machine
end

