-- ==== Sys2Proof/Machine/Envelope.lean ====
section
/-! DEFINITION. The harmonic envelope calculator, command `CENV` (42_envelope.md). -/

namespace Sys2Proof.Machine

open Sys2Proof

/-- The roll-off of 25 % per formant, the quarter rounded down (R162). -/
def rollOff (w : Nat) : Nat := w - w >>> 2

/-- `W[k]`, the amplitude weight of formant `k + 1` (R162). -/
def weight (c : Cfg) (k : Fin 3) : Nat :=
  match k with
  | 0 => c.ampMax
  | 1 => rollOff c.ampMax
  | 2 => rollOff (rollOff c.ampMax)

/-- `h`, the harmonic number (R163). -/
def harmonicNumber (f0 f : Nat) : Nat := if f0 = 0 then 0 else f / f0

/-- `ahi`, the share of the upper harmonic (R164, R165). -/
def upperShare (w f0 f : Nat) : Nat :=
  if f0 = 0 ∨ f = 0 then 0 else w * (f - harmonicNumber f0 f * f0) / f0

/-- `alo`, the share of the lower harmonic (R164, R165). -/
def lowerShare (w f0 f : Nat) : Nat :=
  if f0 = 0 ∨ f = 0 then 0 else w - upperShare w f0 f

/-- `f[0] = CUR[0]` as a number. -/
def voiceBar (s : State) : Nat := (s.cur.get 0).toNat

/-- `f[k + 1] = CUR[k + 1]`, the frequency of formant `k + 1`, as a number. -/
def formantFreq (s : State) (k : Fin 3) : Nat := (s.cur.get k.succ).toNat

/-- `OSC[0]` set to `f[0]`, its phase kept (R161, R169). -/
def fundamental (c : Cfg) (s : State) : Osc :=
  { freq := s.cur.get 0
    phase := (s.osc.get 0).phase
    wave := packWave s.ctrl.timbre (if s.cur.get 0 = 0#16 then 0 else c.ampMax) }

/-- A harmonic oscillator's phase: `m * OSC[0].PHASE mod 2^16` under phase synchronisation, else as it was (R166). -/
def harmonicPhase (m : Nat) (s : State) (old : Osc) : Half :=
  if s.ctrl.psync then BitVec.ofNat 16 (m * (s.osc.get 0).phase.toNat) else old.phase

/-- `OSC[2k−1]`, the lower bounding harmonic of a formant (R163, R164, R166, R167). -/
def lowerOsc (c : Cfg) (s : State) (k : Fin 3) (old : Osc) : Osc :=
  { freq := BitVec.ofNat 16 (harmonicNumber (voiceBar s) (formantFreq s k) * voiceBar s)
    phase := harmonicPhase (harmonicNumber (voiceBar s) (formantFreq s k)) s old
    wave := packWave s.ctrl.timbre (lowerShare (weight c k) (voiceBar s) (formantFreq s k)) }

/-- `OSC[2k]`, the upper bounding harmonic of a formant (R163, R164, R166, R167). -/
def upperOsc (c : Cfg) (s : State) (k : Fin 3) (old : Osc) : Osc :=
  { freq := BitVec.ofNat 16 ((harmonicNumber (voiceBar s) (formantFreq s k) + 1) * voiceBar s)
    phase := harmonicPhase (harmonicNumber (voiceBar s) (formantFreq s k) + 1) s old
    wave := packWave s.ctrl.timbre (upperShare (weight c k) (voiceBar s) (formantFreq s k)) }

/-- The buzz case (R161 to R167): the seven formant oscillators, slots as in 10_state.md R22. -/
def cenvBuzz (c : Cfg) (s : State) : State :=
  s.withOsc
    { x0 := fundamental c s
      x1 := lowerOsc c s 0 s.osc.x1
      x2 := upperOsc c s 0 s.osc.x2
      x3 := lowerOsc c s 1 s.osc.x3
      x4 := upperOsc c s 1 s.osc.x4
      x5 := lowerOsc c s 2 s.osc.x5
      x6 := upperOsc c s 2 s.osc.x6 }

/-- The noise cases (R169): `OSC[0]` and the frequencies of the fricative oscillators. -/
def cenvNoise (c : Cfg) (s : State) : State :=
  (s.withOsc (s.osc.set 0 (fundamental c s))).withFosc
    (.ofFn fun k => { s.fosc.get k with freq := c.fricFreq k (s.cur.get k.succ) })

/-- `CUR[0] <- 0` (R168). -/
def muteVoiceBar (s : State) : State := s.withCur (s.cur.set 0 0#16)

/-- The whole command (R171). -/
def cenv (c : Cfg) (src : Source) (s : State) : State :=
  match src with
  | .silence => s
  | .aspiration => cenvNoise c (muteVoiceBar s)
  | .frication => cenvNoise c s
  | .buzz => cenvBuzz c s

/-- `CENV src` (R160). -/
def execCenv (src : Source) (s : State) : Host.Outcome State Fault Refusal :=
  .next (cenv Config.cfg src s)

end Sys2Proof.Machine
end

