-- ==== Sys2Proof/Machine/Phase.lean ====
section
/-! DEFINITION. The phase accumulators and the wavetable lookup (40_phase_and_wavetable.md R120 to R127), with the default
laws of two configuration functions (41_renderer.md R147; 42_envelope.md R169). -/

namespace Sys2Proof.Machine

open Sys2Proof

/-- `advance16` (R120): `PHASE <- (PHASE + FREQ) mod 2^16`. -/
def advance16 (o : Osc) : Osc := { o with phase := o.phase + o.freq }

/-- `advance32` (R121): `PHASE <- (PHASE + FREQ) mod 2^32`. -/
def advance32 (o : Fosc) : Fosc := { o with phase := o.phase + o.freq }

/-- `buzz_index` (R122). -/
def buzzIndex (c : Cfg) (p : Half) : Nat := (p.toNat >>> c.buzzShift) % 2 ^ c.buzzBits

/-- `noise_index` (R123). -/
def noiseIndex (c : Cfg) (p : Word) : Nat := p.toNat >>> (32 - c.fricBits)

/-- `wave_sample` (R124): amplitude step 0 is silent and reads no ROM. A step above `AMP_MAX`, which cannot be stored (V5),
reads the open constant (DESIGN CHOICE, safe: notes/assumptions/11.md). -/
def waveSample (c : Cfg) (t : BitVec 2) (a : BitVec 6) (i : Nat) : Byte :=
  if a = 0#6 then 0#8 else c.buzz t a i

/-- `osc_out` (R125), with the mute rule (R126). -/
def oscOut (c : Cfg) (o : Osc) : Byte :=
  if o.freq = 0#16 then 0#8 else waveSample c (timbreOf o.wave) (ampOf o.wave) (buzzIndex c o.phase)

/-- `noise_raw` (R127): the mute rule is ignored. -/
def noiseRaw (c : Cfg) (o : Fosc) : Byte := c.noise (noiseIndex c o.phase)

/-- `fosc_out` (R127), with the mute rule (R126). -/
def foscOut (c : Cfg) (o : Fosc) : Byte := if o.freq = 0#32 then 0#8 else noiseRaw c o

/-- The decided default of `am_mix` (41_renderer.md R147): the product scaled back, rounded toward minus infinity. -/
def defaultAmMix (amShift : Nat) (b m : Byte) : Int := Int.fdiv (b.toInt * m.toInt) (2 ^ amShift)

/-- The decided default of `fric_freq` (42_envelope.md R169): `zext_32(f) << FRIC_FREQ_SHIFT`. -/
def defaultFricFreq (fricFreqShift : Nat) (_ : Fin 3) (f : Half) : Word := f.setWidth 32 <<< fricFreqShift

/-- The configuration `c` with the decided defaults of `fric_freq` and `am_mix`, at its own `FRIC_FREQ_SHIFT` and `AM_SHIFT`
(00_scope.md R6). -/
def withDefaultLaws (c : Cfg) : Cfg :=
  { c with fricFreq := defaultFricFreq c.fricFreqShift, amMix := defaultAmMix c.amShift }

end Sys2Proof.Machine
end

