-- ==== Sys2Proof/Machine/Renderer.lean ====
section
/-! DEFINITION. The renderer commands `RFORM`, `RFRIC` and `RSIL` (41_renderer.md). -/

namespace Sys2Proof.Machine

open Sys2Proof

/-- The renderer in use (43_segment_player.md R197). -/
inductive Kind where
  | formant
  | fricative
  | silence
  deriving DecidableEq, Repr

/-- `osc_out(0) + … + osc_out(6)`, exact (R141). -/
def bankSum (c : Cfg) (v : Vec7 Osc) : Int :=
  (oscOut c v.x0).toInt + (oscOut c v.x1).toInt + (oscOut c v.x2).toInt + (oscOut c v.x3).toInt
    + (oscOut c v.x4).toInt + (oscOut c v.x5).toInt + (oscOut c v.x6).toInt

/-- `fosc_out(0) + fosc_out(1) + fosc_out(2) + am_mix(b, m)`, exact, with `b` the buzz sample of `OSC[0]` and `m` the raw
noise at `FOSC[0]`'s phase (R146). -/
def fricSum (c : Cfg) (o : Osc) (v : Vec3 Fosc) : Int :=
  (foscOut c v.x0).toInt + (foscOut c v.x1).toInt + (foscOut c v.x2).toInt
    + c.amMix (oscOut c o) (noiseRaw c v.x0)

/-- Advances all seven formant oscillators. -/
def advanceBank (s : State) : State := s.withOsc (s.osc.map advance16)

/-- Advances `OSC[0]` and the three fricative oscillators. -/
def advanceFric (s : State) : State :=
  (s.withOsc (s.osc.set 0 (advance16 (s.osc.get 0)))).withFosc (s.fosc.map advance32)

/-- The exact sum of the next formant sample: advance, then look up (40_phase_and_wavetable.md R128). -/
def formantAcc (c : Cfg) (s : State) : Int := bankSum c (advanceBank s).osc

/-- The exact sum of the next fricative sample. -/
def fricativeAcc (c : Cfg) (s : State) : Int :=
  fricSum c ((advanceFric s).osc.get 0) (advanceFric s).fosc

/-- The sample a renderer computes next (R141, R146, R150). -/
def renderOut (c : Cfg) (k : Kind) (s : State) : Byte :=
  match k with
  | .formant => narrow8 c (formantAcc c s)
  | .fricative => narrow8 c (fricativeAcc c s)
  | .silence => 0#8

/-- What computing a sample does to the state before the sample is offered: the phases advance and `OVF` may be set
(R141, R146 without the `emit`); the silence generator touches nothing (R150). -/
def renderState (c : Cfg) (k : Kind) (s : State) : State :=
  match k with
  | .formant => noteOverflow (formantAcc c s) (advanceBank s)
  | .fricative => noteOverflow (fricativeAcc c s) (advanceFric s)
  | .silence => s

/-- `formant_sample()` (R141), `fricative_sample()` (R146), or `emit(0)` (R150). -/
def sample (c : Cfg) (k : Kind) (s : State) : State := emit (renderOut c k s) (renderState c k s)

/-- `repeat n times` of a renderer's sample (R140, R145, R150). -/
def samples (c : Cfg) (k : Kind) (n : Nat) (s : State) : State := Nat.iterate (sample c k) n s

/-- The acceptance of `RFORM`, `RFRIC` or `RSIL` with a count above 0 by the sequencer (43_segment_player.md R197). -/
def startRender (op : SeqOp) (count : Half) (s : State) : State :=
  s.withSeq { s.seq with op := op, cnt := count.setWidth 32, j := 0#32, st := .render }

/-- A renderer command: nothing for a count of 0; the whole command if the sink is ready (the big-step form,
43_segment_player.md R200); else the sequencer starts and goes on transition by transition (R197). DESIGN CHOICE:
notes/assumptions/3.md and 14.md. -/
def renderCommand (c : Cfg) (op : SeqOp) (k : Kind) (count : Half) (s : State) : State :=
  if count = 0#16 then s
  else if s.smpReady then samples c k count.toNat s
  else startRender op count s

/-- `RFORM count` (R140). -/
def execRform (count : Half) (s : State) : Host.Outcome State Fault Refusal :=
  .next (renderCommand Config.cfg .rform .formant count s)

/-- `RFRIC count` (R145). -/
def execRfric (count : Half) (s : State) : Host.Outcome State Fault Refusal :=
  .next (renderCommand Config.cfg .rfric .fricative count s)

/-- `RSIL count` (R150). -/
def execRsil (count : Half) (s : State) : Host.Outcome State Fault Refusal :=
  .next (renderCommand Config.cfg .rsil .silence count s)

end Sys2Proof.Machine
end

