-- ==== Sys2Proof/Machine/Player.lean ====
section
/-! DEFINITION. The segment player and the frequency interpolator, command `PLAY` (43_segment_player.md). -/

namespace Sys2Proof.Machine

open Sys2Proof

/-- `S[c]`: the start frequency after zero substitution (R184). -/
def substStart (start stop : Half) : Half := if start = 0#16 then stop else start

/-- `E[c]`: the end frequency after zero substitution (R184). -/
def substEnd (start stop : Half) : Half := if stop = 0#16 then start else stop

/-- `interp(S, E, N, i)`: the midpoint for one slice (R186), the linear glide for more (R185). -/
def interp (s e n i : Nat) : Nat :=
  if n = 1 then (s + e) / 2
  else if s ≤ e then s + (e - s) * i / (n - 1)
  else s - (s - e) * i / (n - 1)

/-- The segment a `PLAY` latches: its source, its count and its end points after substitution (R181). -/
@[ext] structure Segment where
  src : Source
  n : Nat
  s : Vec4 Half
  e : Vec4 Half
  deriving DecidableEq, Repr

/-- The operand latch (R181, R184). -/
def latch (src : Source) (count : Half) (s : State) : Segment :=
  { src := src
    n := count.toNat
    s := .ofFn fun c => substStart (s.start.get c) (s.stop.get c)
    e := .ofFn fun c => substEnd (s.start.get c) (s.stop.get c) }

/-- The FrequencySet of slice `i` (R185, R186), channel 0 forced to 0 for aspiration (R187). -/
def sliceFreqs (g : Segment) (i : Nat) : Vec4 Half :=
  .ofFn fun c =>
    if g.src = .aspiration ∧ c = 0 then 0#16
    else BitVec.ofNat 16 (interp (g.s.get c).toNat (g.e.get c).toNat g.n i)

/-- The renderer that serves a source (R189). -/
def kindOf (src : Source) : Kind :=
  match src with
  | .silence => .silence
  | .aspiration => .fricative
  | .frication => .fricative
  | .buzz => .formant

/-- The start of slice `i`: `CUR`, then the envelope calculator (R188). -/
def beginSlice (c : Cfg) (g : Segment) (i : Nat) (s : State) : State :=
  cenv c g.src (s.withCur (sliceFreqs g i))

/-- Slice `i`: its start, then its `SLICE_LEN` samples (R188). -/
def playSlice (c : Cfg) (g : Segment) (i : Nat) (s : State) : State :=
  samples c (kindOf g.src) c.sliceLen (beginSlice c g i s)

/-- The `k` slices from slice `i` on, in order (R190). -/
def playSlices (c : Cfg) (g : Segment) (i k : Nat) (s : State) : State :=
  match k with
  | 0 => s
  | k + 1 => playSlices c g (i + 1) k (playSlice c g i s)

/-- The whole command with a sink that accepts (R190). -/
def play (c : Cfg) (src : Source) (count : Half) (s : State) : State :=
  if count = 0#16 then s
  else if src = .silence then samples c .silence (count.toNat * c.sliceLen) s
  else playSlices c (latch src count s) 0 count.toNat s

/-- The acceptance of a `PLAY` with a count above 0 by the sequencer (R181, R197). -/
def startPlay (c : Cfg) (src : Source) (count : Half) (s : State) : State :=
  if src = .silence then
    s.withSeq
      { s.seq with
        op := .play, src := src, n := count, cnt := BitVec.ofNat 32 (count.toNat * c.sliceLen), j := 0#32
        st := .render }
  else
    s.withSeq
      { s.seq with
        op := .play, src := src, n := count, i := 0#16
        s := (latch src count s).s, e := (latch src count s).e, st := .slice }

/-- `PLAY`: nothing for a count of 0 (R182); the whole command if the sink is ready (the big-step form, R200); else the
sequencer starts and goes on transition by transition (R197). DESIGN CHOICE: notes/assumptions/3.md and 14.md. -/
def playCommand (c : Cfg) (src : Source) (count : Half) (s : State) : State :=
  if count = 0#16 then s
  else if s.smpReady then play c src count s
  else startPlay c src count s

/-- `PLAY src, count` (R180). -/
def execPlay (src : Source) (count : Half) (s : State) : Host.Outcome State Fault Refusal :=
  .next (playCommand Config.cfg src count s)

end Sys2Proof.Machine
end

