-- ==== Sys2Proof/Machine/Dispatch.lean ====
section
/-! DEFINITION. One arm per command: its meaning. -/

namespace Sys2Proof.Machine

open Sys2Proof

def exec (i : Instr) (s : State) : Host.Outcome State Fault Refusal :=
  match i with
  | .nop => Sys2Proof.Machine.execNop s
  | .wrl reg imm => Sys2Proof.Machine.execWrl reg imm s
  | .wrh reg imm => Sys2Proof.Machine.execWrh reg imm s
  | .rd reg => Sys2Proof.Machine.execRd reg s
  | .play src count => Sys2Proof.Machine.execPlay src count s
  | .cenv src => Sys2Proof.Machine.execCenv src s
  | .rform count => Sys2Proof.Machine.execRform count s
  | .rfric count => Sys2Proof.Machine.execRfric count s
  | .rsil count => Sys2Proof.Machine.execRsil count s
  | .reset => Sys2Proof.Machine.execReset s

end Sys2Proof.Machine
end

