-- ==== Sys2Proof/Machine/Sequencer.lean ====
section
/-! DEFINITION. The sequencer's transitions out of RESP, SLICE, RENDER and EMIT (43_segment_player.md R196 to R199), and the
block's handshake outputs (20_memory.md R65 to R67). -/

namespace Sys2Proof.Machine

open Sys2Proof

/-- The output `cmd_ready` (20_memory.md R65). -/
def cmdReady (s : State) : Bool := decide (s.seq.st = .idle)

/-- The output `smp_valid` (20_memory.md R66; 43_segment_player.md R196). -/
def smpValid (s : State) : Bool := decide (s.seq.st = .emit)

/-- The output `rsp_valid` (20_memory.md R67; 43_segment_player.md R196). -/
def rspValid (s : State) : Bool := decide (s.seq.st = .resp)

/-- `kind`, the renderer in use (R197). -/
def seqKind (q : Seq) : Kind :=
  match q.op with
  | .rform => .formant
  | .rfric => .fricative
  | .rsil => .silence
  | .play => kindOf q.src

/-- The segment the sequencer has latched (R181). -/
def seqSegment (q : Seq) : Segment := { src := q.src, n := q.n.toNat, s := q.s, e := q.e }

/-- RESP (R197): the host accepts the response, or the block waits. -/
def tickResp (s : State) : State :=
  if s.rspReady then deliver s.seq.rsp (s.withSeq { s.seq with st := .idle }) else s

/-- SLICE (R197): the start of timeslice `SEQ.I`. -/
def tickSlice (c : Cfg) (s : State) : State :=
  (beginSlice c (seqSegment s.seq) s.seq.i.toNat s).withSeq
    { s.seq with cnt := BitVec.ofNat 32 c.sliceLen, j := 0#32, st := .render }

/-- RENDER (R197): the sample is computed into `SEQ.OUT`; the phases now run one sample ahead (R198). -/
def tickRender (c : Cfg) (s : State) : State :=
  (renderState c (seqKind s.seq) s).withSeq
    { s.seq with out := renderOut c (seqKind s.seq) s, st := .emit }

/-- Where the sequencer goes when the sink has accepted a sample (R197): the next sample, the next timeslice, or IDLE.
Register values that no run reaches take the last arm (DESIGN CHOICE, safe: notes/assumptions/12.md). -/
def afterAccept (q : Seq) : Seq :=
  if q.j.toNat + 1 < q.cnt.toNat then { q with j := q.j + 1#32, st := .render }
  else if q.op = .play ∧ q.src ≠ .silence ∧ q.i.toNat + 1 < q.n.toNat then { q with i := q.i + 1#16, st := .slice }
  else { q with st := .idle }

/-- EMIT (R197, R198): the sink accepts the sample, or the block waits and changes nothing. -/
def tickEmit (s : State) : State :=
  if s.smpReady then emit s.seq.out (s.withSeq (afterAccept s.seq)) else s

end Sys2Proof.Machine
end

