-- ==== Sys2Proof/Machine/Accept.lean ====
section
/-! DEFINITION. IDLE: the acceptance of the next command word (20_memory.md R65; 43_segment_player.md R197). -/

namespace Sys2Proof.Machine

open Sys2Proof

/-- The accepted word is executed, or refused with the cause the decoder found (30_encoding.md R98; 60_exceptions.md
R232). -/
def acceptWord (w : Word) (s : State) : Host.Outcome State Fault Refusal :=
  match decode w with
  | .command i => exec i s
  | .illegal k => .next (raiseIll k w s)

/-- IDLE: the block waits for a word (70_reset_and_hazards.md R260), and accepts the one that is offered first (20_memory.md
R65). -/
def tickIdle (s : State) : Host.Outcome State Fault Refusal :=
  match s.cmds with
  | [] => .next s
  | w :: ws => acceptWord w (s.withCmds ws)

end Sys2Proof.Machine
end

