-- ==== Sys2Proof/Machine/Step.lean ====
section
/-! DEFINITION. One step of the block: the hard reset if it is requested, which wins over everything (60_exceptions.md
R238), else the sequencer's transition (43_segment_player.md R197). -/

namespace Sys2Proof.Machine

open Sys2Proof

/-- One step. -/
def step (s : State) : Host.Outcome State Fault Refusal :=
  if s.rst then .next (hardReset s)
  else
    match s.seq.st with
    | .idle => tickIdle s
    | .resp => .next (tickResp s)
    | .slice => .next (tickSlice Config.cfg s)
    | .render => .next (tickRender Config.cfg s)
    | .emit => .next (tickEmit s)

/-- The state in which the word numbered as the opcode table numbers it is the next the block accepts: it stands first on
the command channel, the sequencer is in IDLE and no reset is requested (notes/assumptions/8.md). -/
def State.withFetchWord (s : State) (nbits w : Nat) : State :=
  { s with cmds := tableWord nbits w :: s.cmds, seq := { s.seq with st := .idle }, rst := false }

end Sys2Proof.Machine
end

