-- ==== Sys2Proof/Safety.lean ====
section
/-! DEFINITION. What a good state of the block is, in the terms the statements use. -/

namespace Sys2Proof.Machine

open Sys2Proof

/-- Every oscillator's amplitude step has a table or is the silent one: a step above `AMP_MAX` cannot be stored
(10_state.md R23; 93_implementation_defined.md V5). -/
def AmpsInRange (c : Cfg) (s : State) : Prop := ∀ j, (ampOf (s.osc.get j).wave).toNat ≤ c.ampMax

/-- The error record: a cause 1 to 5 while `ILL` is 1; cause 0 and `BADCMD` 0 while it is 0 (10_state.md R29, R30;
60_exceptions.md R231). -/
def ErrorRecordSound (s : State) : Prop :=
  if s.status.ill then 1 ≤ s.status.cause.toNat ∧ s.status.cause.toNat ≤ 5
  else s.status.cause = 0#4 ∧ s.badcmd = 0#32

/-- The sequencer is inside a timeslice of a `PLAY` that makes sound: `SEQ.I < SEQ.N` (10_state.md R27), and every channel
is rendered throughout or not at all (43_segment_player.md R184). -/
def InSlice (q : Seq) : Prop :=
  q.op = .play ∧ q.src ≠ .silence ∧ q.i.toNat < q.n.toNat ∧ ∀ c, q.s.get c = 0#16 ↔ q.e.get c = 0#16

/-- The bound `SEQ.CNT` of a run: `SLICE_LEN` in a slice of a `PLAY`, `N * SLICE_LEN` for a silent `PLAY`, at most 65535 for
a renderer command (43_segment_player.md R197). -/
def CountSound (c : Cfg) (q : Seq) : Prop :=
  if q.op = .play then
    if q.src = .silence then q.cnt.toNat = q.n.toNat * c.sliceLen else q.cnt.toNat = c.sliceLen
  else q.cnt.toNat ≤ 65535

/-- A run of samples is in progress: `SEQ.J < SEQ.CNT` (10_state.md R27), and in a slice of a `PLAY` that makes sound `CUR`
holds the slice's frequencies (43_segment_player.md R188). -/
def InRun (c : Cfg) (s : State) : Prop :=
  s.seq.j.toNat < s.seq.cnt.toNat ∧ CountSound c s.seq ∧
    (s.seq.op = .play ∧ s.seq.src ≠ .silence →
      InSlice s.seq ∧ s.cur = sliceFreqs (seqSegment s.seq) s.seq.i.toNat)

/-- What the sequencer's registers satisfy in each of its states (43_segment_player.md R196, R197). -/
def SeqSound (c : Cfg) (s : State) : Prop :=
  match s.seq.st with
  | .idle => True
  | .resp => True
  | .slice => InSlice s.seq
  | .render => InRun c s
  | .emit => InRun c s

/-- The invariant every step keeps. -/
structure Invariant (c : Cfg) (s : State) : Prop where
  amps : AmpsInRange c s
  record : ErrorRecordSound s
  seq : SeqSound c s

/-- A run so far without a refused word and without a narrowed sample: the premise "`ILL` = 0 and `OVF` = 0"
(10_state.md R29). -/
def Clean (s : State) : Prop := s.status.ill = false ∧ s.status.ovf = false

end Sys2Proof.Machine
end

