-- ==== Sys2Proof/WellFormed.lean ====
section
/-! DEFINITION. Well-formed commands. Every term of `Instr` has a word (its fields are the word's fields), so a check is
about what the word asks for: an implemented register, an access the register admits, a value in its range
(60_exceptions.md R233 (3) to (5)). The block executes a well-formed command and refuses any other. -/

namespace Sys2Proof

/-- Under the configuration `c`, no check of 60_exceptions.md R233 (3) to (5) refuses the command. -/
def Instr.WellFormed (c : Cfg) (i : Instr) : Bool := (Machine.refusalOf c i).isNone

end Sys2Proof
end

