-- ==== Sys2Proof/Certificates/Slice0/Obligations.lean ====
section
/-! DEFINITION. The statements for the provers, and before them the plain arithmetic of the spec's own numbers in which they
say what the machine does. -/

namespace Sys2Proof.Spec

open Sys2Proof Sys2Proof.Machine

/-! ### Words and registers by arithmetic -/

/-- The reserved register numbers (20_memory.md R61). -/
abbrev Reserved (n : Nat) : Prop :=
  (0x04 ≤ n ∧ n ≤ 0x0F) ∨ (0x1C ≤ n ∧ n ≤ 0x1F) ∨ (0x20 ≤ n ∧ n ≤ 0x3B ∧ n % 4 = 3) ∨
    (0x3C ≤ n ∧ n ≤ 0x3F) ∨ 0x46 ≤ n

/-- The numbers of the `WAVE` registers, 0x22 + 4j (R61). -/
abbrev WaveNumber (n : Nat) : Prop := 0x20 ≤ n ∧ n ≤ 0x3B ∧ n % 4 = 2

/-- A must-be-zero field of the word's format is not 0 (60_exceptions.md R231, cause 2). -/
abbrev ZeroFieldBroken (w : Nat) : Prop :=
  ((w / 2 ^ 28 = 0x0 ∨ w / 2 ^ 28 = 0xF) ∧ w % 2 ^ 28 ≠ 0) ∨
  ((w / 2 ^ 28 = 0x1 ∨ w / 2 ^ 28 = 0x2) ∧ w / 2 ^ 16 % 2 ^ 4 ≠ 0) ∨
  (w / 2 ^ 28 = 0x3 ∧ w % 2 ^ 20 ≠ 0) ∨
  (w / 2 ^ 28 = 0x4 ∧ w / 2 ^ 18 % 2 ^ 10 ≠ 0) ∨
  (w / 2 ^ 28 = 0x5 ∧ (w / 2 ^ 18 % 2 ^ 10 ≠ 0 ∨ w % 2 ^ 16 ≠ 0)) ∨
  ((w / 2 ^ 28 = 0x6 ∨ w / 2 ^ 28 = 0x7 ∨ w / 2 ^ 28 = 0x8) ∧ w / 2 ^ 16 % 2 ^ 12 ≠ 0)

/-- The cause code of the word `w`, 0 if it is executed: the checks of 60_exceptions.md R231 in the order of R233. -/
def wordCause (ampMax w : Nat) : Nat :=
  if 0x9 ≤ w / 2 ^ 28 ∧ w / 2 ^ 28 ≤ 0xE then 1
  else if ZeroFieldBroken w then 2
  else if (w / 2 ^ 28 = 0x1 ∨ w / 2 ^ 28 = 0x2 ∨ w / 2 ^ 28 = 0x3) ∧ Reserved (w / 2 ^ 20 % 256) then 3
  else if (w / 2 ^ 28 = 0x1 ∧ (w / 2 ^ 20 % 256 = 0x02 ∨ w / 2 ^ 20 % 256 = 0x03)) ∨
      (w / 2 ^ 28 = 0x2 ∧ w / 2 ^ 20 % 256 < 0x40) then 4
  else if w / 2 ^ 28 = 0x1 ∧
      ((w / 2 ^ 20 % 256 = 0x00 ∧ w % 2 ^ 16 / 8 ≠ 0) ∨ (w / 2 ^ 20 % 256 = 0x01 ∧ w % 2 ^ 16 / 4 ≠ 0) ∨
        (WaveNumber (w / 2 ^ 20 % 256) ∧ (w % 2 ^ 16 / 256 ≠ 0 ∨ ampMax < w % 64))) then 5
  else 0

/-- The word of `WRL reg, imm` (30_encoding.md R101). -/
def wrlWord (reg : BitVec 8) (imm : Half) : Nat := 0x1 * 2 ^ 28 + reg.toNat * 2 ^ 20 + imm.toNat

/-- The word of `WRH reg, imm` (30_encoding.md R101). -/
def wrhWord (reg : BitVec 8) (imm : Half) : Nat := 0x2 * 2 ^ 28 + reg.toNat * 2 ^ 20 + imm.toNat

/-- The value of register number `n` as the host reads it, none for a reserved number (20_memory.md R61; 44_host_access.md
R213). -/
def regValue (s : State) (n : Nat) : Option Nat :=
  if Reserved n then none
  else if n = 0x00 then some (s.ctrl.psync.toNat + 2 * s.ctrl.timbre.toNat)
  else if n = 0x01 then some (s.status.ill.toNat + 2 * s.status.ovf.toNat + 16 * s.status.cause.toNat)
  else if n = 0x02 then some Config.cfg.sliceLen
  else if n = 0x03 then some s.badcmd.toNat
  else if n < 0x14 then some (s.start.get (Fin.ofNat 4 (n - 0x10))).toNat
  else if n < 0x18 then some (s.stop.get (Fin.ofNat 4 (n - 0x14))).toNat
  else if n < 0x1C then some (s.cur.get (Fin.ofNat 4 (n - 0x18))).toNat
  else if n < 0x3C then
    if n % 4 = 0 then some (s.osc.get (Fin.ofNat 7 ((n - 0x20) / 4))).freq.toNat
    else if n % 4 = 1 then some (s.osc.get (Fin.ofNat 7 ((n - 0x20) / 4))).phase.toNat
    else some (s.osc.get (Fin.ofNat 7 ((n - 0x20) / 4))).wave.toNat
  else
    if n % 2 = 0 then some (s.fosc.get (Fin.ofNat 3 ((n - 0x40) / 2))).freq.toNat
    else some (s.fosc.get (Fin.ofNat 3 ((n - 0x40) / 2))).phase.toNat

/-- The state after `respond(v)` (20_memory.md R67): the response delivered, or waiting in RESP. -/
def answered (v : Word) (s : State) : State :=
  if s.rspReady = true then { s with responses := s.responses ++ [v] }
  else { s with seq := { s.seq with rsp := v, st := .resp } }

/-- The state after the refusal of the word `w` with the cause code `k` (60_exceptions.md R232). -/
def refused (k : Nat) (w : Word) (s : State) : State :=
  let recorded :=
    if s.status.ill = true then s
    else { s with status := { s.status with ill := true, cause := BitVec.ofNat 4 k }, badcmd := w }
  if w.toNat / 2 ^ 28 = 0x3 then answered 0#32 recorded else recorded

/-! ### Samples by arithmetic -/

/-- The output of a formant oscillator `m` samples from now (40_phase_and_wavetable.md R120, R122, R124, R125). -/
def oscByte (o : Osc) (m : Nat) : Byte :=
  if o.freq = 0#16 ∨ ampOf o.wave = 0#6 then 0#8
  else
    Config.cfg.buzz (timbreOf o.wave) (ampOf o.wave)
      ((o.phase.toNat + m * o.freq.toNat) % 2 ^ 16 / 2 ^ Config.cfg.buzzShift % 2 ^ Config.cfg.buzzBits)

/-- The noise entry at a fricative oscillator's phase `m` samples from now (R121, R123, R127). -/
def noiseByte (o : Fosc) (m : Nat) : Byte :=
  Config.cfg.noise ((o.phase.toNat + m * o.freq.toNat) % 2 ^ 32 / 2 ^ (32 - Config.cfg.fricBits))

/-- The exact sum of the formant bank `m` samples from now (41_renderer.md R141). -/
def formantSum (s : State) (m : Nat) : Int := ∑ j : Fin 7, (oscByte (s.osc.get j) m).toInt

/-- The exact sum of the fricative bank `m` samples from now (41_renderer.md R146). -/
def fricativeSum (s : State) (m : Nat) : Int :=
  (∑ k : Fin 3, if (s.fosc.get k).freq = 0#32 then 0 else (noiseByte (s.fosc.get k) m).toInt)
    + Config.cfg.amMix (oscByte (s.osc.get 0) m) (noiseByte (s.fosc.get 0) m)

/-- A sum that does not fit a signed byte. -/
abbrev TooBig (acc : Int) : Prop := acc < -128 ∨ 127 < acc

/-- A formant oscillator `n` samples later. -/
def oscLater (n : Nat) (o : Osc) : Osc := { o with phase := o.phase + BitVec.ofNat 16 (n * o.freq.toNat) }

/-- A fricative oscillator `n` samples later. -/
def foscLater (n : Nat) (o : Fosc) : Fosc := { o with phase := o.phase + BitVec.ofNat 32 (n * o.freq.toNat) }

/-- The amplitude weights (42_envelope.md R162). -/
def weights (ampMax : Nat) : Fin 3 → Nat
  | 0 => ampMax
  | 1 => ampMax - ampMax / 4
  | 2 => (ampMax - ampMax / 4) - (ampMax - ampMax / 4) / 4

/-- The slot of the lower bounding harmonic of formant `k + 1` (10_state.md R22). -/
def lowerSlot (k : Fin 3) : Fin 7 := ⟨2 * k.val + 1, by omega⟩

/-- The slot of the upper bounding harmonic of formant `k + 1` (10_state.md R22). -/
def upperSlot (k : Fin 3) : Fin 7 := ⟨2 * k.val + 2, by omega⟩

/-! ### Runs -/

/-- A list of commands, executed in order. -/
def runAll : List Instr → State → Host.Outcome State Fault Refusal
  | [], s => .next s
  | i :: is, s =>
    match exec i s with
    | .next t => runAll is t
    | .fault r => .fault r
    | .refused r => .refused r

/-- One timeslice as host commands: `CUR` written, the envelope calculated, `SLICE_LEN` samples rendered
(43_segment_player.md R188). -/
def sliceCommands (src : Source) (f : Vec4 Half) : List Instr :=
  [.wrl 0x18#8 (f.get 0), .wrl 0x19#8 (f.get 1), .wrl 0x1A#8 (f.get 2), .wrl 0x1B#8 (f.get 3), .cenv src,
    if src = .buzz then .rform (BitVec.ofNat 16 Config.cfg.sliceLen)
    else .rfric (BitVec.ofNat 16 Config.cfg.sliceLen)]

/-- The frequency of channel `c` in slice `i` of a segment of `n` slices (43_segment_player.md R184 to R187). -/
def channelFreq (src : Source) (n i : Nat) (s : State) (c : Fin 4) : Half :=
  if src = .aspiration ∧ c = 0 then 0#16
  else
    BitVec.ofNat 16
      (interp (substStart (s.start.get c) (s.stop.get c)).toNat (substEnd (s.start.get c) (s.stop.get c)).toNat n i)

/-- A segment as host commands, slice after slice (43_segment_player.md R190). -/
def segmentCommands (src : Source) (n : Nat) (s : State) : List Instr :=
  (List.range n).flatMap fun i => sliceCommands src (.ofFn (channelFreq src n i s))

/-- The number of samples a command emits (43_segment_player.md R192, R201; 41_renderer.md R140, R145, R150). -/
def sampleCount (i : Instr) : Nat :=
  match i with
  | .play _ n => n.toNat * Config.cfg.sliceLen
  | .rform n => n.toNat
  | .rfric n => n.toNat
  | .rsil n => n.toNat
  | .nop => 0
  | .wrl _ _ => 0
  | .wrh _ _ => 0
  | .rd _ => 0
  | .cenv _ => 0
  | .reset => 0

/-- The number of transitions of the sequencer from a command's acceptance to its return to IDLE when the sink never
delays: a RENDER and an EMIT per sample, and a SLICE per timeslice that makes sound (43_segment_player.md R197, R199). -/
def transitions (i : Instr) : Nat :=
  match i with
  | .play src n => 2 * sampleCount i + if src = .silence then 0 else n.toNat
  | _ => 2 * sampleCount i

/-- Steps with a sink that answers each of them as the list says. -/
def runDelayed : List Bool → State → Host.Outcome State Fault Refusal
  | [], s => .next s
  | b :: bs, s =>
    match step (s.withSmpReady b) with
    | .next t => runDelayed bs t
    | .fault r => .fault r
    | .refused r => .refused r

end Sys2Proof.Spec

section

open Sys2Proof Sys2Proof.Machine Sys2Proof.Spec

/-! ### Encoding -/

/-- Decoding the word of a command gives the command, for every command and every value of its operands: each of the
2^32 words is exactly one command or refused (30_encoding.md, section 4). -/
def Obligations.DecodeOfEncodeIsTheCommand : Prop := ∀ i : Instr, decode (encode i) = .command i

/-- A word that decodes to a command is that command's word: no two words are one command, and no bit of a word is
dropped. -/
def Obligations.CommandHasOneWord : Prop := ∀ (w : Word) (i : Instr), decode w = .command i → encode i = w

/-- The match and mask rows of 30_encoding.md section 2 decide which command a word is, and a word that matches no row is
refused. -/
def Obligations.MatchMaskRowsDecideDecoding : Prop :=
  ∀ w : Word,
    (decode w = .command .nop ↔ w &&& 0xFFFFFFFF#32 = 0x00000000#32) ∧
    ((∃ r m, decode w = .command (.wrl r m)) ↔ w &&& 0xF00F0000#32 = 0x10000000#32) ∧
    ((∃ r m, decode w = .command (.wrh r m)) ↔ w &&& 0xF00F0000#32 = 0x20000000#32) ∧
    ((∃ r, decode w = .command (.rd r)) ↔ w &&& 0xF00FFFFF#32 = 0x30000000#32) ∧
    ((∃ x n, decode w = .command (.play x n)) ↔ w &&& 0xFFFC0000#32 = 0x40000000#32) ∧
    ((∃ x, decode w = .command (.cenv x)) ↔ w &&& 0xFFFCFFFF#32 = 0x50000000#32) ∧
    ((∃ n, decode w = .command (.rform n)) ↔ w &&& 0xFFFF0000#32 = 0x60000000#32) ∧
    ((∃ n, decode w = .command (.rfric n)) ↔ w &&& 0xFFFF0000#32 = 0x70000000#32) ∧
    ((∃ n, decode w = .command (.rsil n)) ↔ w &&& 0xFFFF0000#32 = 0x80000000#32) ∧
    (decode w = .command .reset ↔ w &&& 0xFFFFFFFF#32 = 0xF0000000#32) ∧
    ((∃ i, decode w = .command i) ∨ ∃ k, decode w = .illegal k)

/-- The fourteen worked encodings of 30_encoding.md section 5. -/
def Obligations.WorkedEncodingsDecode : Prop :=
  decode 0x00000000#32 = .command .nop ∧
  decode 0x11000800#32 = .command (.wrl 0x10#8 0x0800#16) ∧
  decode 0x11706000#32 = .command (.wrl 0x17#8 0x6000#16) ∧
  decode 0x10000003#32 = .command (.wrl 0x00#8 0x0003#16) ∧
  decode 0x12A00050#32 = .command (.wrl 0x2A#8 0x0050#16) ∧
  decode 0x2430ABCD#32 = .command (.wrh 0x43#8 0xABCD#16) ∧
  decode 0x32100000#32 = .command (.rd 0x21#8) ∧
  decode 0x40030005#32 = .command (.play .buzz 5#16) ∧
  decode 0x40000028#32 = .command (.play .silence 40#16) ∧
  decode 0x50020000#32 = .command (.cenv .frication) ∧
  decode 0x60000020#32 = .command (.rform 32#16) ∧
  decode 0x70000004#32 = .command (.rfric 4#16) ∧
  decode 0x80000500#32 = .command (.rsil 1280#16) ∧
  decode 0xF0000000#32 = .command .reset

/-- The register map: each implemented register's number, and the reserved numbers, are those of 20_memory.md R61; no two
registers share a number. -/
def Obligations.RegisterMapIsTheSpecs : Prop :=
  (∀ n, regOf n = none ↔ Reserved n.toNat) ∧
  (∀ r, regOf (regNumber r) = some r) ∧
  (∀ n r, regOf n = some r → regNumber r = n) ∧
  (regNumber .ctrl).toNat = 0x00 ∧ (regNumber .status).toNat = 0x01 ∧
  (regNumber .sliceLen).toNat = 0x02 ∧ (regNumber .badcmd).toNat = 0x03 ∧
  (∀ c : Fin 4, (regNumber (.start c)).toNat = 0x10 + c.val ∧ (regNumber (.stop c)).toNat = 0x14 + c.val ∧
    (regNumber (.cur c)).toNat = 0x18 + c.val) ∧
  (∀ j : Fin 7, (regNumber (.oscFreq j)).toNat = 0x20 + 4 * j.val ∧
    (regNumber (.oscPhase j)).toNat = 0x21 + 4 * j.val ∧ (regNumber (.oscWave j)).toNat = 0x22 + 4 * j.val) ∧
  (∀ k : Fin 3, (regNumber (.foscFreq k)).toNat = 0x40 + 2 * k.val ∧
    (regNumber (.foscPhase k)).toNat = 0x41 + 2 * k.val)

/-! ### Refused words -/

/-- Which words are refused and with which cause, for all 2^32 words and every state in which the block accepts one with
`ILL` = 0: the causes of 60_exceptions.md R231 in the order of R233. A word that is executed leaves `ILL` = 0. -/
def Obligations.EveryWordsCause : Prop :=
  ∀ (s : State) (w : Word) (ws : List Word),
    s.rst = false → s.seq.st = .idle → s.cmds = w :: ws → s.status.ill = false →
    ∃ t, step s = .next t ∧
      (wordCause Config.cfg.ampMax w.toNat = 0 → t.status.ill = false) ∧
      (wordCause Config.cfg.ampMax w.toNat ≠ 0 →
        t.status.ill = true ∧ t.status.cause.toNat = wordCause Config.cfg.ampMax w.toNat ∧ t.badcmd = w)

/-- The error action (60_exceptions.md R232), whole: a refused word changes the error record, if `ILL` was 0, and nothing
else, but that a word with opcode 0x3 gets the response 0; the block goes on.
That a response is delivered in the same step when the host is ready is the model's choice, log entry 3; that a `WRL`,
`WRH` or `RD` refused in its meaning records its own word is log entry 10.
That a response delivered at once leaves the sequencer's hidden registers as they were is log entry 14. -/
def Obligations.RefusedWordErrorAction : Prop :=
  ∀ (s : State) (w : Word) (ws : List Word),
    s.rst = false → s.seq.st = .idle → s.cmds = w :: ws → wordCause Config.cfg.ampMax w.toNat ≠ 0 →
    step s = .next (refused (wordCause Config.cfg.ampMax w.toNat) w { s with cmds := ws })

/-- A command is well-formed exactly when its word has no cause (60_exceptions.md R233), so the block executes the
well-formed commands and refuses the others. -/
def Obligations.WellFormedIffNoCause : Prop :=
  ∀ i : Instr, i.WellFormed Config.cfg = true ↔ wordCause Config.cfg.ampMax (encode i).toNat = 0

/-- No step and no command ever faults or is without a meaning: execution is never stopped (60_exceptions.md R230, R232).
That the step then has a next state in every case, that a wait in EMIT, RESP or IDLE (U6 and U7 call the first two stuck) is a
step to a next state and no stop, is the model's choice, log entry 15. -/
def Obligations.NothingStopsTheBlock : Prop :=
  (∀ s, ∃ t, step s = .next t) ∧ ∀ i s, ∃ t, exec i s = .next t

/-! ### The primitives -/

/-- The phase accumulators (40_phase_and_wavetable.md R120, R121): addition modulo 2^16 and 2^32; only the phase is
written. -/
def Obligations.PhaseAccumulatorsWrap : Prop :=
  (∀ o : Osc, (advance16 o).phase.toNat = (o.phase.toNat + o.freq.toNat) % 2 ^ 16 ∧
    (advance16 o).freq = o.freq ∧ (advance16 o).wave = o.wave) ∧
  (∀ o : Fosc, (advance32 o).phase.toNat = (o.phase.toNat + o.freq.toNat) % 2 ^ 32 ∧
    (advance32 o).freq = o.freq)

/-- Both table indices are always inside their table (20_memory.md R69), and the decided `BUZZ_SHIFT` = 16 − `BUZZ_BITS`
makes the buzz index the top `BUZZ_BITS` bits of the phase (40_phase_and_wavetable.md R122, R123). -/
def Obligations.TableIndicesStayInside : Prop :=
  (∀ p, buzzIndex Config.cfg p < 2 ^ Config.cfg.buzzBits) ∧
  (∀ p, noiseIndex Config.cfg p < 2 ^ Config.cfg.fricBits) ∧
  (∀ c : Cfg, c.Valid → c.buzzShift = 16 - c.buzzBits →
    ∀ p : Half, buzzIndex c p = p.toNat / 2 ^ (16 - c.buzzBits)) ∧
  (∀ p : Word, noiseIndex Config.cfg p = p.toNat / 2 ^ (32 - Config.cfg.fricBits))

/-- The narrowing to 8 bits (41_renderer.md R143): the sum itself if it fits, with `OVF` as it was; else its low 8 bits or
the nearest end of the range, by `OUT_NARROW`, with `OVF` set. -/
def Obligations.NarrowingOfASum : Prop :=
  ∀ (c : Cfg) (acc : Int) (s : State),
    (¬ TooBig acc → (narrow8 c acc).toInt = acc ∧ noteOverflow acc s = s) ∧
    (TooBig acc →
      noteOverflow acc s = { s with status := { s.status with ovf := true } } ∧
      (c.outNarrow = .wrap → (narrow8 c acc).toInt = (acc + 128) % 256 - 128) ∧
      (c.outNarrow = .saturate → (narrow8 c acc).toInt = if acc < 0 then -128 else 127))

/-- The exact sums stay in the ranges the spec gives: −896..889 for the formant bank (41_renderer.md R141), and −511..509
for the fricative bank under the default `am_mix` (R146, R147). -/
def Obligations.SumsStayInTheirRanges : Prop :=
  (∀ (c : Cfg) (v : Vec7 Osc), -896 ≤ bankSum c v ∧ bankSum c v ≤ 889) ∧
  (∀ (c : Cfg) (o : Osc) (v : Vec3 Fosc), c.amMix = defaultAmMix 7 →
    -511 ≤ fricSum c o v ∧ fricSum c o v ≤ 509)

/-- The default laws (41_renderer.md R147; 42_envelope.md R169; 00_scope.md R6), for every shift of R6's range: `am_mix` is
the floored quotient by 2^`AM_SHIFT` and is 0 where either argument is; `fric_freq` never wraps and maps 0 to 0; a valid
configuration is still valid with them in place. -/
def Obligations.DefaultLaws : Prop :=
  (∀ (n : Nat) (b m : Byte), (defaultAmMix n b m) * 2 ^ n ≤ b.toInt * m.toInt ∧
    b.toInt * m.toInt < (defaultAmMix n b m + 1) * 2 ^ n) ∧
  (∀ (n : Nat) (b m : Byte), defaultAmMix n 0#8 m = 0 ∧ defaultAmMix n b 0#8 = 0) ∧
  (∀ (n : Nat) (k : Fin 3) (f : Half), n ≤ 16 → (defaultFricFreq n k f).toNat = f.toNat * 2 ^ n) ∧
  (∀ c : Cfg, c.Valid → (withDefaultLaws c).Valid ∧
    (withDefaultLaws c).amMix = defaultAmMix c.amShift ∧
    ∀ (k : Fin 3) (f : Half), ((withDefaultLaws c).fricFreq k f).toNat = f.toNat * 2 ^ c.fricFreqShift)

/-- With the sink ready and `OVF` = 0 before and after, wrap and saturate give the same samples and the same state
(41_renderer.md R143): for a run of any renderer and for a whole segment. -/
def Obligations.NarrowingModesAgreeWithoutOverflow : Prop :=
  ∀ (c : Cfg) (x : Narrow) (s : State), s.status.ovf = false →
    (∀ (k : Kind) (n : Nat), (samples c k n s).status.ovf = false →
      samples { c with outNarrow := x } k n s = samples c k n s) ∧
    (∀ (src : Source) (n : Half), (play c src n s).status.ovf = false →
      play { c with outNarrow := x } src n s = play c src n s)

/-! ### The renderers -/

/-- `RFORM` (41_renderer.md R140, R141, R143) with the sink ready, for every count: each formant oscillator's phase grows by
`count * FREQ`; sample number m is the narrowed sum of the seven look-ups at phase + (m + 1) * `FREQ`; `OVF` is set if
some sum did not fit and never cleared; nothing else changes.
One step runs the whole command when the sink is ready: the big-step form R200 allows, the model's choice, log entry
3.
That such a step leaves the sequencer's hidden registers as they were is the model's choice, log entry 14. -/
def Obligations.RformRendersTheFormantBank : Prop :=
  ∀ (n : Half) (s : State), s.smpReady = true →
    ∃ t out, exec (.rform n) s = .next t ∧
      t = { s with
            osc := s.osc.map (oscLater n.toNat)
            status := { s.status with ovf := t.status.ovf }
            samples := s.samples ++ out } ∧
      out.length = n.toNat ∧
      (∀ m, m < n.toNat → out[m]? = some (narrow8 Config.cfg (formantSum s (m + 1)))) ∧
      (t.status.ovf = true ↔ s.status.ovf = true ∨ ∃ m, m < n.toNat ∧ TooBig (formantSum s (m + 1)))

/-- `RFRIC` (41_renderer.md R145, R146, R143) with the sink ready, for every count: `OSC[0]` and the three fricative
oscillators advance; sample number m is the narrowed sum of the unmuted noise look-ups and `am_mix` of the buzz and the
noise at `FOSC[0]`'s phase; nothing else changes, `OSC[1..6]` in particular.
One step runs the whole command when the sink is ready: the big-step form R200 allows, the model's choice, log entry
3.
That such a step leaves the sequencer's hidden registers as they were is the model's choice, log entry 14. -/
def Obligations.RfricRendersTheFricativeBank : Prop :=
  ∀ (n : Half) (s : State), s.smpReady = true →
    ∃ t out, exec (.rfric n) s = .next t ∧
      t = { s with
            osc := s.osc.set 0 (oscLater n.toNat (s.osc.get 0))
            fosc := s.fosc.map (foscLater n.toNat)
            status := { s.status with ovf := t.status.ovf }
            samples := s.samples ++ out } ∧
      out.length = n.toNat ∧
      (∀ m, m < n.toNat → out[m]? = some (narrow8 Config.cfg (fricativeSum s (m + 1)))) ∧
      (t.status.ovf = true ↔ s.status.ovf = true ∨ ∃ m, m < n.toNat ∧ TooBig (fricativeSum s (m + 1)))

/-- `RSIL` (41_renderer.md R150) with the sink ready: `count` zero samples, and nothing else changes.
One step runs the whole command when the sink is ready: the big-step form R200 allows, the model's choice, log entry
3.
That such a step leaves the sequencer's hidden registers as they were is the model's choice, log entry 14. -/
def Obligations.RsilEmitsZeros : Prop :=
  ∀ (n : Half) (s : State), s.smpReady = true →
    exec (.rsil n) s = .next { s with samples := s.samples ++ List.replicate n.toNat 0#8 }

/-- A command with a count of 0 emits nothing and changes nothing, whatever the sink does: the renderers (41_renderer.md R140,
R145, R150) and, for every source, `PLAY` (43_segment_player.md R182). -/
def Obligations.ZeroCountDoesNothing : Prop :=
  ∀ s : State, exec (.rform 0#16) s = .next s ∧ exec (.rfric 0#16) s = .next s ∧ exec (.rsil 0#16) s = .next s ∧
    ∀ src : Source, exec (.play src 0#16) s = .next s

/-- With the sink not ready a renderer command with a count above 0 starts the sequencer, in RENDER, and changes nothing
but the sequencer's registers (43_segment_player.md R197). That the step is this one when the sink is not ready is the
model's choice, log entry 3. -/
def Obligations.RendererStartsTheSequencer : Prop :=
  ∀ (n : Half) (s : State), s.smpReady = false → n ≠ 0#16 →
    exec (.rform n) s =
      .next { s with seq := { s.seq with op := .rform, cnt := n.setWidth 32, j := 0#32, st := .render } } ∧
    exec (.rfric n) s =
      .next { s with seq := { s.seq with op := .rfric, cnt := n.setWidth 32, j := 0#32, st := .render } } ∧
    exec (.rsil n) s =
      .next { s with seq := { s.seq with op := .rsil, cnt := n.setWidth 32, j := 0#32, st := .render } }

/-- One sample per command is the block's single step (60_exceptions.md R244): a run of m + n samples is a run of m and
then a run of n, with the same samples and the same state.
One step runs the whole command when the sink is ready: the big-step form R200 allows, the model's choice, log entry
3.
That such a step leaves the sequencer's hidden registers as they were is the model's choice, log entry 14. -/
def Obligations.RendererRunsJoin : Prop :=
  ∀ (m n : Half) (s t : State), s.smpReady = true → m.toNat + n.toNat < 2 ^ 16 →
    (exec (.rform m) s = .next t → exec (.rform (m + n)) s = exec (.rform n) t) ∧
    (exec (.rfric m) s = .next t → exec (.rfric (m + n)) s = exec (.rfric n) t)

/-- After reset `RFORM` and `RFRIC` emit zeros, and nothing but the sample channel changes (10_state.md R33, derived there
from the mute rule).
One step runs the whole command when the sink is ready: the big-step form R200 allows, the model's choice, log entry
3.
That the sink is ready after reset is log entry 6.
That such a step leaves the sequencer's hidden registers as they were is the model's choice, log entry 14. -/
def Obligations.ResetBlockIsSilent : Prop :=
  ∀ n : Half,
    exec (.rform n) State.reset = .next { State.reset with samples := List.replicate n.toNat 0#8 } ∧
    exec (.rfric n) State.reset = .next { State.reset with samples := List.replicate n.toNat 0#8 }

/-! ### The envelope calculator -/

/-- `CENV buzz` (42_envelope.md R161 to R167), whole: the fundamental, then for each formant the two bounding harmonics'
frequencies, amplitude shares, timbre and phases; only the formant oscillators change. -/
def Obligations.CenvBuzzSetsTheBank : Prop :=
  ∀ s : State, ∃ t, exec (.cenv .buzz) s = .next t ∧
    t = { s with osc := t.osc } ∧
    (t.osc.get 0).freq = s.cur.get 0 ∧ (t.osc.get 0).phase = (s.osc.get 0).phase ∧
    timbreOf (t.osc.get 0).wave = s.ctrl.timbre ∧
    (ampOf (t.osc.get 0).wave).toNat = (if s.cur.get 0 = 0#16 then 0 else Config.cfg.ampMax) ∧
    ∀ k : Fin 3, ∀ f0 f h w : Nat,
      f0 = (s.cur.get 0).toNat → f = (s.cur.get k.succ).toNat → h = (if f0 = 0 then 0 else f / f0) →
      w = weights Config.cfg.ampMax k →
      (t.osc.get (lowerSlot k)).freq.toNat = h * f0 ∧
      (t.osc.get (upperSlot k)).freq.toNat = (h + 1) * f0 % 2 ^ 16 ∧
      timbreOf (t.osc.get (lowerSlot k)).wave = s.ctrl.timbre ∧
      timbreOf (t.osc.get (upperSlot k)).wave = s.ctrl.timbre ∧
      (f0 ≠ 0 ∧ f ≠ 0 →
        (ampOf (t.osc.get (upperSlot k)).wave).toNat = w * (f - h * f0) / f0 ∧
        (ampOf (t.osc.get (lowerSlot k)).wave).toNat + (ampOf (t.osc.get (upperSlot k)).wave).toNat = w) ∧
      (f0 = 0 ∨ f = 0 →
        ampOf (t.osc.get (upperSlot k)).wave = 0#6 ∧ ampOf (t.osc.get (lowerSlot k)).wave = 0#6) ∧
      (s.ctrl.psync = true →
        (t.osc.get (lowerSlot k)).phase.toNat = h * (s.osc.get 0).phase.toNat % 2 ^ 16 ∧
        (t.osc.get (upperSlot k)).phase.toNat = (h + 1) * (s.osc.get 0).phase.toNat % 2 ^ 16) ∧
      (s.ctrl.psync = false →
        (t.osc.get (lowerSlot k)).phase = (s.osc.get (lowerSlot k)).phase ∧
        (t.osc.get (upperSlot k)).phase = (s.osc.get (upperSlot k)).phase)

/-- `CENV frication` and `CENV aspiration` (42_envelope.md R168, R169): `OSC[0]` and the fricative oscillators' frequencies
are set, aspiration after `CUR[0] <- 0`; no phase and no other oscillator is written. -/
def Obligations.CenvNoiseSetsTheFricativeBank : Prop :=
  ∀ s : State,
    (∃ t, exec (.cenv .frication) s = .next t ∧
      t = { s with
            osc := s.osc.set 0 (t.osc.get 0)
            fosc := .ofFn fun k => ⟨Config.cfg.fricFreq k (s.cur.get k.succ), (s.fosc.get k).phase⟩ } ∧
      (t.osc.get 0).freq = s.cur.get 0 ∧ (t.osc.get 0).phase = (s.osc.get 0).phase ∧
      timbreOf (t.osc.get 0).wave = s.ctrl.timbre ∧
      (ampOf (t.osc.get 0).wave).toNat = (if s.cur.get 0 = 0#16 then 0 else Config.cfg.ampMax)) ∧
    exec (.cenv .aspiration) s = exec (.cenv .frication) { s with cur := s.cur.set 0 0#16 }

/-- `CENV silence` does nothing (42_envelope.md R170). -/
def Obligations.CenvSilenceDoesNothing : Prop := ∀ s : State, exec (.cenv .silence) s = .next s

/-- The shares never exceed the weight, and the weights fall from `AMP_MAX` without reaching 0, so that every step the
envelope calculator writes fits `WAVE.AMP` (42_envelope.md R162, R164). -/
def Obligations.AmplitudeSharesFit : Prop :=
  ∀ (k : Fin 3) (f0 f : Nat),
    1 ≤ weight Config.cfg k ∧ weight Config.cfg k ≤ Config.cfg.ampMax ∧
    weight Config.cfg k = weights Config.cfg.ampMax k ∧
    upperShare (weight Config.cfg k) f0 f + lowerShare (weight Config.cfg k) f0 f =
      (if f0 = 0 ∨ f = 0 then 0 else weight Config.cfg k)

/-- With phase synchronisation the relation of a harmonic oscillator's phase to the fundamental's, set up by `CENV buzz`,
still holds after any number of formant samples (42_envelope.md R166, derived there).
One step runs the whole command when the sink is ready: the big-step form R200 allows, the model's choice, log entry
3. -/
def Obligations.SynchronisedPhasesStaySynchronised : Prop :=
  ∀ (s t u : State) (n : Half) (k : Fin 3), s.smpReady = true → s.ctrl.psync = true →
    exec (.cenv .buzz) s = .next t → exec (.rform n) t = .next u →
    (u.osc.get (lowerSlot k)).phase =
      BitVec.ofNat 16 (harmonicNumber (voiceBar s) (formantFreq s k) * (u.osc.get 0).phase.toNat) ∧
    (u.osc.get (upperSlot k)).phase =
      BitVec.ofNat 16 ((harmonicNumber (voiceBar s) (formantFreq s k) + 1) * (u.osc.get 0).phase.toNat)

/-! ### The segment player -/

/-- The zero substitution (43_segment_player.md R184): an end point of 0 takes the other's value, so that a channel is 0 at
both ends or at neither; doing it twice changes nothing. -/
def Obligations.ZeroEndPointsAreSubstituted : Prop :=
  ∀ a b : Half,
    substStart a b = (if a = 0#16 then b else a) ∧ substEnd a b = (if b = 0#16 then a else b) ∧
    (substStart a b = 0#16 ↔ substEnd a b = 0#16) ∧
    substStart (substStart a b) (substEnd a b) = substStart a b ∧
    substEnd (substStart a b) (substEnd a b) = substEnd a b

/-- The linear glide for two slices or more (43_segment_player.md R185): its formula, its exact end points, and that every
value lies between them. -/
def Obligations.GlideReachesBothEnds : Prop :=
  ∀ s e n i : Nat, 2 ≤ n → i < n →
    (s ≤ e → interp s e n i = s + (e - s) * i / (n - 1)) ∧
    (e < s → interp s e n i = s - (s - e) * i / (n - 1)) ∧
    interp s e n 0 = s ∧ interp s e n (n - 1) = e ∧
    min s e ≤ interp s e n i ∧ interp s e n i ≤ max s e

/-- The single slice uses the midpoint, rounded down (43_segment_player.md R186). -/
def Obligations.SingleSliceUsesTheMidpoint : Prop :=
  ∀ s e : Nat, interp s e 1 0 = (s + e) / 2 ∧ (s < 2 ^ 16 → e < 2 ^ 16 → interp s e 1 0 < 2 ^ 16)

/-- `PLAY silence` (43_segment_player.md R183) with the sink ready: N * `SLICE_LEN` zero samples, and nothing else.
One step runs the whole command when the sink is ready: the big-step form R200 allows, the model's choice, log entry
3.
That such a step leaves the sequencer's hidden registers as they were is the model's choice, log entry 14. -/
def Obligations.PlaySilenceEmitsZeros : Prop :=
  ∀ (n : Half) (s : State), s.smpReady = true →
    exec (.play .silence n) s =
      .next { s with samples := s.samples ++ List.replicate (n.toNat * Config.cfg.sliceLen) 0#8 }

/-- `PLAY` with a source that makes sound, the sink ready (43_segment_player.md R188, R190): it is, slice by slice, the
commands that write `CUR` with the slice's interpolated frequencies, run `CENV` and render `SLICE_LEN` samples with the
source's renderer, from the same state to the same state with the same samples.
One step runs the whole command when the sink is ready: the big-step form R200 allows, the model's choice, log entry
3.
That such a step leaves the sequencer's hidden registers as they were is the model's choice, log entry 14. -/
def Obligations.PlayIsItsSlicesCommands : Prop :=
  ∀ (src : Source) (n : Half) (s : State), src ≠ .silence → s.smpReady = true →
    ∃ t, exec (.play src n) s = .next t ∧ runAll (segmentCommands src n.toNat s) s = .next t

/-- What `PLAY` with a source that makes sound leaves unchanged, the sink ready (10_state.md R34): the operand registers,
`CTRL`, the error record, the responses and the inputs; the fricative oscillators under buzz; `OSC[1..6]` under a
noise source; `OSC[0].PHASE` only advances, by the slices' fundamental; `OVF` is set, never cleared.
One step runs the whole command when the sink is ready: the big-step form R200 allows, the model's choice, log entry
3.
That such a step leaves the sequencer's hidden registers as they were is the model's choice, log entry 14. -/
def Obligations.PlayLeavesTheRestUnchanged : Prop :=
  ∀ (src : Source) (n : Half) (s : State), src ≠ .silence → s.smpReady = true →
    ∃ t out, exec (.play src n) s = .next t ∧
      t = { s with
            osc := t.osc, fosc := t.fosc, cur := t.cur
            status := { s.status with ovf := t.status.ovf }
            samples := s.samples ++ out } ∧
      out.length = n.toNat * Config.cfg.sliceLen ∧
      (s.status.ovf = true → t.status.ovf = true) ∧
      (src = .buzz → t.fosc = s.fosc) ∧
      (src ≠ .buzz → t.osc = s.osc.set 0 (t.osc.get 0)) ∧
      (t.osc.get 0).phase = (s.osc.get 0).phase +
        BitVec.ofNat 16
          (Config.cfg.sliceLen * ((List.range n.toNat).map fun i => (channelFreq src n.toNat i s 0).toNat).sum)

/-- After a `PLAY` with a source that makes sound and a count of at least 1, `CUR` holds the last slice's frequencies: the
end frequencies if there were two slices or more, the midpoint if there was one, channel 0 at 0 for aspiration
(10_state.md R26; 43_segment_player.md R185 to R187, R191).
One step runs the whole command when the sink is ready: the big-step form R200 allows, the model's choice, log entry
3. -/
def Obligations.PlayEndsAtTheEndFrequencies : Prop :=
  ∀ (src : Source) (n : Half) (s : State) (c : Fin 4), src ≠ .silence → n ≠ 0#16 → s.smpReady = true →
    ∃ t, exec (.play src n) s = .next t ∧
      (src = .aspiration ∧ c = 0 → t.cur.get c = 0#16) ∧
      (¬ (src = .aspiration ∧ c = 0) →
        (2 ≤ n.toNat → t.cur.get c = substEnd (s.start.get c) (s.stop.get c)) ∧
        (n = 1#16 → (t.cur.get c).toNat =
          ((substStart (s.start.get c) (s.stop.get c)).toNat +
            (substEnd (s.start.get c) (s.stop.get c)).toNat) / 2))

/-- Splitting a constant segment changes neither the samples nor the end state (43_segment_player.md R191 (e), derived
there), for every source.
One step runs the whole command when the sink is ready: the big-step form R200 allows, the model's choice, log entry
3.
That such a step leaves the sequencer's hidden registers as they were is the model's choice, log entry 14. -/
def Obligations.ConstantSegmentsSplit : Prop :=
  ∀ (src : Source) (m n : Half) (s t : State), s.smpReady = true → s.start = s.stop →
    m.toNat + n.toNat < 2 ^ 16 → exec (.play src m) s = .next t →
    exec (.play src (m + n)) s = exec (.play src n) t

/-- With the sink not ready a `PLAY` with a count above 0 starts the sequencer with its operands latched, in RENDER for
silence and in SLICE otherwise, and changes nothing but the sequencer's registers (43_segment_player.md R181, R197). That
the step is this one when the sink is not ready is the model's choice, log entry 3. -/
def Obligations.PlayStartsTheSequencer : Prop :=
  ∀ (src : Source) (n : Half) (s : State), s.smpReady = false → n ≠ 0#16 →
    exec (.play .silence n) s =
      .next { s with
              seq := { s.seq with
                       op := .play, src := .silence, n := n
                       cnt := BitVec.ofNat 32 (n.toNat * Config.cfg.sliceLen), j := 0#32, st := .render } } ∧
    (src ≠ .silence →
      exec (.play src n) s =
        .next { s with
                seq := { s.seq with
                         op := .play, src := src, n := n, i := 0#16, st := .slice
                         s := .ofFn fun c => substStart (s.start.get c) (s.stop.get c)
                         e := .ofFn fun c => substEnd (s.start.get c) (s.stop.get c) } })

/-- The number of samples a command emits is a function of the word and `SLICE_LEN` alone: no register value changes it
(43_segment_player.md R192, R201; 60_exceptions.md R241); earlier samples stay as they were. With the sink ready.
One step runs the whole command when the sink is ready: the big-step form R200 allows, the model's choice, log entry
3. -/
def Obligations.SampleCountDependsOnTheWordAlone : Prop :=
  ∀ (i : Instr) (s : State), s.smpReady = true →
    ∃ t out, exec i s = .next t ∧ t.samples = s.samples ++ out ∧ out.length = sampleCount i

/-! ### Host access -/

/-- `NOP` leaves every register unchanged (44_host_access.md R210). -/
def Obligations.NopChangesNothing : Prop := ∀ s : State, exec .nop s = .next s

/-- `WRL` of a register other than `STATUS`, where no check refuses it (44_host_access.md R211): the register then reads as
the immediate, an `FOSC` register with its high half kept; every other register reads as before, and nothing else in the
block changes. -/
def Obligations.WrlWritesTheLowHalf : Prop :=
  ∀ (reg : BitVec 8) (imm : Half) (s : State) (old : Nat),
    wordCause Config.cfg.ampMax (wrlWord reg imm) = 0 → reg.toNat ≠ 0x01 → regValue s reg.toNat = some old →
    ∃ t, exec (.wrl reg imm) s = .next t ∧
      regValue t reg.toNat = some (if 0x40 ≤ reg.toNat then old / 2 ^ 16 * 2 ^ 16 + imm.toNat else imm.toNat) ∧
      (∀ n, n ≠ reg.toNat → regValue t n = regValue s n) ∧
      t = { s with start := t.start, stop := t.stop, cur := t.cur, ctrl := t.ctrl, osc := t.osc, fosc := t.fosc }

/-- `WRL STATUS` where no check refuses it (44_host_access.md R211; 10_state.md R29): write-one-to-clear, `CAUSE` and
`BADCMD` with `ILL`; nothing else changes. -/
def Obligations.WrlStatusClears : Prop :=
  ∀ (imm : Half) (s : State), imm.toNat < 4 →
    exec (.wrl 0x01#8 imm) s =
      .next { s with
              status :=
                { ill := if imm.toNat % 2 = 1 then false else s.status.ill
                  ovf := if imm.toNat / 2 = 1 then false else s.status.ovf
                  cause := if imm.toNat % 2 = 1 then 0#4 else s.status.cause }
              badcmd := if imm.toNat % 2 = 1 then 0#32 else s.badcmd }

/-- `WRH` of an `FOSC` register (44_host_access.md R212): the high half becomes the immediate, the low half is kept; every
other register reads as before, and nothing but the fricative oscillators changes. -/
def Obligations.WrhWritesTheHighHalf : Prop :=
  ∀ (reg : BitVec 8) (imm : Half) (s : State) (old : Nat),
    wordCause Config.cfg.ampMax (wrhWord reg imm) = 0 → regValue s reg.toNat = some old →
    ∃ t, exec (.wrh reg imm) s = .next t ∧
      regValue t reg.toNat = some (imm.toNat * 2 ^ 16 + old % 2 ^ 16) ∧
      (∀ n, n ≠ reg.toNat → regValue t n = regValue s n) ∧
      t = { s with fosc := t.fosc }

/-- `RD` (44_host_access.md R213): one response, the whole register zero-extended; no register changes on a read. With the
host ready the response is delivered; else it waits in `SEQ.RSP` and the block is in RESP (20_memory.md R67).
That a response is delivered in the same step when the host is ready is the model's choice, log entry 3.
That a response delivered at once leaves the sequencer's hidden registers as they were is log entry 14. -/
def Obligations.RdAnswersTheRegister : Prop :=
  ∀ (reg : BitVec 8) (s : State) (v : Nat), regValue s reg.toNat = some v →
    exec (.rd reg) s = .next (answered (BitVec.ofNat 32 v) s) ∧ v < 2 ^ 32

/-- `RESET` (44_host_access.md R214; 10_state.md R33): every piece of state the spec gives a reset value has it; the
channels' record and the inputs, which are not the block's, stay.
The record of the channels and the inputs are the model's own fields, log entries 5, 6 and 7. -/
def Obligations.ResetCommandResetsTheBlock : Prop :=
  ∀ s : State, ∃ t, exec .reset s = .next t ∧
    (∀ j, t.osc.get j = ⟨0#16, 0#16, 0#8⟩) ∧ (∀ k, t.fosc.get k = ⟨0#32, 0#32⟩) ∧
    (∀ c, t.start.get c = 0#16 ∧ t.stop.get c = 0#16 ∧ t.cur.get c = 0#16) ∧
    t.ctrl = ⟨true, 0#2⟩ ∧ t.status = ⟨false, false, 0#4⟩ ∧ t.badcmd = 0#32 ∧ t.seq.st = .idle ∧
    t.cmds = s.cmds ∧ t.samples = s.samples ∧ t.responses = s.responses ∧
    t.rst = s.rst ∧ t.smpReady = s.smpReady ∧ t.rspReady = s.rspReady

/-- The state after reset holds every value that 10_state.md R33 gives. -/
def Obligations.ResetStateIsTheSpecs : Prop :=
  (∀ j, State.reset.osc.get j = ⟨0#16, 0#16, 0#8⟩) ∧ (∀ k, State.reset.fosc.get k = ⟨0#32, 0#32⟩) ∧
  (∀ c, State.reset.start.get c = 0#16 ∧ State.reset.stop.get c = 0#16 ∧ State.reset.cur.get c = 0#16) ∧
  State.reset.ctrl.psync = true ∧ State.reset.ctrl.timbre = 0#2 ∧
  State.reset.status = ⟨false, false, 0#4⟩ ∧ State.reset.badcmd = 0#32 ∧ State.reset.seq.st = .idle ∧
  regValue State.reset 0x02 = some Config.cfg.sliceLen

/-- No command reads `STATUS` to decide anything (10_state.md R29): from states that differ only in `STATUS` and `BADCMD`, a
command other than a `RD` of one of these two leads to states that differ only there. -/
def Obligations.FlagsDecideNothing : Prop :=
  ∀ (i : Instr) (s t t' : State) (st : Status) (bad : Word),
    i ≠ .rd 0x01#8 → i ≠ .rd 0x03#8 →
    exec i s = .next t → exec i { s with status := st, badcmd := bad } = .next t' →
    t' = { t with status := t'.status, badcmd := t'.badcmd }

/-! ### The step and the sequencer -/

/-- A step runs the decoded command: in IDLE with no reset requested, when the first offered word decodes to a command, the
step is that command's meaning on the state with the word taken off the channel.
The channel is a list of the state by log entry 6. -/
def Obligations.StepRunsTheDecodedCommand : Prop :=
  ∀ (s : State) (w : Word) (ws : List Word) (i : Instr),
    s.rst = false → s.seq.st = .idle → s.cmds = w :: ws → decode w = .command i →
    step s = exec i { s with cmds := ws }

/-- Words are accepted only in IDLE, in the order offered, one at a time, none dropped (20_memory.md R65): a step in another
state leaves the channel as it is, one in IDLE takes the first word, if there is one. A hard reset takes none
(70_reset_and_hazards.md R261).
That the offered words stand in a list of the state is the model's choice, log entry 6. -/
def Obligations.WordsAreTakenInOrder : Prop :=
  ∀ s t : State, step s = .next t →
    (s.rst = true → t.cmds = s.cmds) ∧
    (s.rst = false → s.seq.st ≠ .idle → t.cmds = s.cmds) ∧
    (s.rst = false → s.seq.st = .idle → t.cmds = s.cmds.tail)

/-- A stalled sink or host holds the block where it is, without changing anything (43_segment_player.md R197, R198;
93_implementation_defined.md U6, U7); so does an empty command channel in IDLE.
That a wait is a step to the same state is the model's choice, log entry 15. -/
def Obligations.WaitingChangesNothing : Prop :=
  ∀ s : State, s.rst = false →
    (s.seq.st = .emit → s.smpReady = false → step s = .next s) ∧
    (s.seq.st = .resp → s.rspReady = false → step s = .next s) ∧
    (s.seq.st = .idle → s.cmds = [] → step s = .next s)

/-- The transition out of SLICE (43_segment_player.md R197): `CUR` becomes the slice's frequencies, the envelope calculator
runs as the command `CENV` would, and a run of `SLICE_LEN` samples begins. -/
def Obligations.SliceTransition : Prop :=
  ∀ s : State, s.rst = false → s.seq.st = .slice →
    ∃ t, step s = .next t ∧
      t.seq = { s.seq with cnt := BitVec.ofNat 32 Config.cfg.sliceLen, j := 0#32, st := .render } ∧
      exec (.cenv s.seq.src)
        { s with
          cur := .ofFn fun c =>
            if s.seq.src = .aspiration ∧ c = 0 then 0#16
            else BitVec.ofNat 16
              (interp (s.seq.s.get c).toNat (s.seq.e.get c).toNat s.seq.n.toNat s.seq.i.toNat) } =
        .next { t with seq := s.seq }

/-- The transition out of RENDER (43_segment_player.md R197, R198): the sample that a one-sample command of the renderer in
use would emit is computed into `SEQ.OUT`, with the same effect on the rest of the state, and is not yet handed over.
That a one-sample command runs whole in one step when the sink is ready is the model's choice, log entry 3, and that it then
leaves the sequencer's hidden registers as they were is log entry 14. -/
def Obligations.RenderTransition : Prop :=
  ∀ s : State, s.rst = false → s.seq.st = .render →
    ∃ t, step s = .next t ∧ t.seq = { s.seq with out := t.seq.out, st := .emit } ∧
      exec
        (match s.seq.op with
          | .rform => .rform 1#16
          | .rfric => .rfric 1#16
          | .rsil => .rsil 1#16
          | .play =>
            match s.seq.src with
            | .silence => .rsil 1#16
            | .aspiration => .rfric 1#16
            | .frication => .rfric 1#16
            | .buzz => .rform 1#16) { s with smpReady := true } =
        .next { t with seq := s.seq, samples := s.samples ++ [t.seq.out], smpReady := true }

/-- The transitions out of RESP and EMIT when the host or the sink accepts (43_segment_player.md R197): the response is
delivered, once, and the block is in IDLE; the sample is handed over, once; then the next sample, the next timeslice, or
IDLE. -/
def Obligations.HandOverTransitions : Prop :=
  (∀ s : State, s.rst = false → s.seq.st = .resp → s.rspReady = true →
    step s = .next { s with responses := s.responses ++ [s.seq.rsp], seq := { s.seq with st := .idle } }) ∧
  ∀ s : State, s.rst = false → s.seq.st = .emit → s.smpReady = true →
    ∃ t, step s = .next t ∧ t = { s with samples := s.samples ++ [s.seq.out], seq := t.seq } ∧
      (s.seq.j.toNat + 1 < s.seq.cnt.toNat → t.seq = { s.seq with j := s.seq.j + 1#32, st := .render }) ∧
      (s.seq.j.toNat + 1 = s.seq.cnt.toNat →
        (s.seq.op = .play ∧ s.seq.src ≠ .silence ∧ s.seq.i.toNat + 1 < s.seq.n.toNat →
          t.seq = { s.seq with i := s.seq.i + 1#16, st := .slice }) ∧
        (¬ (s.seq.op = .play ∧ s.seq.src ≠ .silence ∧ s.seq.i.toNat + 1 < s.seq.n.toNat) →
          t.seq = { s.seq with st := .idle }))

/-- The hard reset wins over everything (60_exceptions.md R238) and abandons the command in progress
(70_reset_and_hazards.md R260, R261): every piece of state the spec gives a reset value has it, accepted samples and
responses stay, the pending ones are dropped, no offered word is consumed. That the request is then served is the model's
choice, log entry 7. -/
def Obligations.HardResetAbandonsTheCommand : Prop :=
  ∀ s : State, s.rst = true → ∃ t, step s = .next t ∧
    (∀ j, t.osc.get j = ⟨0#16, 0#16, 0#8⟩) ∧ (∀ k, t.fosc.get k = ⟨0#32, 0#32⟩) ∧
    (∀ c, t.start.get c = 0#16 ∧ t.stop.get c = 0#16 ∧ t.cur.get c = 0#16) ∧
    t.ctrl = ⟨true, 0#2⟩ ∧ t.status = ⟨false, false, 0#4⟩ ∧ t.badcmd = 0#32 ∧ t.seq.st = .idle ∧
    t.cmds = s.cmds ∧ t.samples = s.samples ∧ t.responses = s.responses ∧
    t.smpReady = s.smpReady ∧ t.rspReady = s.rspReady ∧ t.rst = false

/-- The step-by-step form agrees with the big-step form (43_segment_player.md R199, R200), for every command: started with
the sink not ready and then run with a ready sink, the sequencer returns to IDLE after exactly the transitions of R197,
with the samples, the responses and the state of the big-step form, but for the sequencer's hidden registers.
Which of the two forms a step takes is the model's choice, log entry 3; that the big-step form leaves the hidden
registers alone is log entry 14. -/
def Obligations.SequencerAgreesWithBigStep : Prop :=
  ∀ (i : Instr) (s t u : State),
    s.rst = false → s.seq.st = .idle → s.smpReady = true → s.rspReady = true →
    exec i { s with smpReady := false } = .next t → exec i s = .next u →
    ∃ q : Seq, q.st = .idle ∧
      Host.Core.run Sys2Proof.core (transitions i) { t with smpReady := true } = .next { u with seq := q }

/-- The sink's delays change no value (00_scope.md R8; 43_segment_player.md R198, R200): whatever the sink answers at each
step, when the sequencer is back in IDLE the samples, the responses and the state are those of the big-step form, but for
the sequencer's hidden registers.
Which of the two forms a step takes is the model's choice, log entry 3; that the big-step form leaves the hidden
registers alone is log entry 14. -/
def Obligations.SinkDelaysChangeNoValue : Prop :=
  ∀ (i : Instr) (s t u v : State) (bs : List Bool),
    s.rst = false → s.seq.st = .idle → s.smpReady = true → s.rspReady = true → s.cmds = [] →
    exec i { s with smpReady := false } = .next t → exec i s = .next u →
    runDelayed bs t = .next v → v.seq.st = .idle →
    { v with seq := s.seq, smpReady := true } = { u with seq := s.seq }

/-! ### The whole machine -/

/-- Every step keeps the invariant, from every state that has it: amplitude steps in range, a sound error record, and the
sequencer's counters below their bounds. -/
def Obligations.EveryStepKeepsTheInvariant : Prop :=
  ∀ s t : State, Invariant Config.cfg s → step s = .next t → Invariant Config.cfg t

/-- The invariant holds after reset. -/
def Obligations.ResetHasTheInvariant : Prop := Invariant Config.cfg State.reset

/-- Samples and responses are only ever handed over, in order, behind the earlier ones (20_memory.md R66, R67): no step
takes one back or changes one.
The record of the accepted samples and responses is the model's own, log entry 5. -/
def Obligations.ChannelsOnlyGrow : Prop :=
  ∀ s t : State, step s = .next t →
    (∃ out, t.samples = s.samples ++ out) ∧
    ∃ out, t.responses = s.responses ++ out ∧ out.length ≤ 1

/-- The sticky flags are cleared by the host alone (10_state.md R29): by `WRL STATUS` with the flag's bit set, by `RESET`, or
by the hard reset. -/
def Obligations.StickyFlagsAreClearedByTheHostAlone : Prop :=
  ∀ s t : State, step s = .next t → s.rst = false →
    (s.status.ovf = true → t.status.ovf = false →
      s.seq.st = .idle ∧ (s.cmds.head? = some 0xF0000000#32 ∨ s.cmds.head? = some 0x10100002#32 ∨
        s.cmds.head? = some 0x10100003#32)) ∧
    (s.status.ill = true → t.status.ill = false →
      s.seq.st = .idle ∧ (s.cmds.head? = some 0xF0000000#32 ∨ s.cmds.head? = some 0x10100001#32 ∨
        s.cmds.head? = some 0x10100003#32))

/-- `START`, `END` and `CTRL` are written by the host alone (10_state.md R25, R34): a step that changes one of them is a reset or
accepts a `WRL` of one of their numbers or a `RESET`. -/
def Obligations.OperandRegistersAreWrittenByTheHostAlone : Prop :=
  ∀ s t : State, step s = .next t → s.rst = false →
    t.start ≠ s.start ∨ t.stop ≠ s.stop ∨ t.ctrl ≠ s.ctrl →
    s.seq.st = .idle ∧
      (s.cmds.head? = some 0xF0000000#32 ∨
        ∃ (reg : BitVec 8) (imm : Half), s.cmds.head? = some (BitVec.ofNat 32 (wrlWord reg imm)) ∧
          (reg.toNat = 0x00 ∨ 0x10 ≤ reg.toNat ∧ reg.toNat ≤ 0x17))

/-- No command sets a phase accumulator of the fricative bank or of the fundamental to a constant
(40_phase_and_wavetable.md R129): outside resets and host writes of a register above 0x1F, every step of the sequencer,
and every acceptance of a word with the sink not ready, changes `OSC[0].PHASE` by nothing or by one `FREQ`, and so each
`FOSC[k].PHASE`. That an acceptance with the sink not ready renders nothing yet, and one with the sink ready runs the whole
command (how far the phases then advance is said of each command), is the model's choice, log entry 3. -/
def Obligations.PhasesOnlyAdvance : Prop :=
  ∀ s t : State, step s = .next t → s.rst = false →
    (s.seq.st = .idle → s.smpReady = false ∧ s.cmds.head? ≠ some 0xF0000000#32 ∧
      ∀ (reg : BitVec 8) (imm : Half), 0x20 ≤ reg.toNat →
        s.cmds.head? ≠ some (BitVec.ofNat 32 (wrlWord reg imm)) ∧
        s.cmds.head? ≠ some (BitVec.ofNat 32 (wrhWord reg imm))) →
    ((t.osc.get 0).phase = (s.osc.get 0).phase ∨
      (t.osc.get 0).phase = (s.osc.get 0).phase + (s.osc.get 0).freq) ∧
    ∀ k, (t.fosc.get k).phase = (s.fosc.get k).phase ∨
      (t.fosc.get k).phase = (s.fosc.get k).phase + (s.fosc.get k).freq

end
end

