-- ==== Sys2Proof/Laws/Config.lean ====
section
/-! SUPPORT. The machine's configuration is a valid one, whatever the constants without a body are. -/

namespace Sys2Proof

theorem Config.buzzBits_le : Config.buzzBits ≤ 15 := by
  have := Config.buzzBitsPred.isLt
  simp only [Config.buzzBits]; omega

/-- 00_scope.md R6, R263 (1) of 70_reset_and_hazards.md. -/
theorem Config.cfg_valid : Config.cfg.Valid where
  ampMax_pos := by simp [Config.cfg]
  ampMax_le := by have := Config.ampMaxPred.isLt; simp only [Config.cfg]; omega
  buzzBits_pos := by simp [Config.cfg, Config.buzzBits]
  buzzBits_le := Config.buzzBits_le
  buzzShift_le := by have := Config.buzzShift.isLt; simp only [Config.cfg]; omega
  fricBits_gt := by simp only [Config.cfg]; omega
  fricBits_le := by
    have := Config.fricBitsPast.isLt; have := Config.buzzBits_le; simp only [Config.cfg]; omega
  sliceLen_pos := by simp [Config.cfg]
  sliceLen_le := by have := Config.sliceLenPred.isLt; simp only [Config.cfg]; omega
  fricFreq_zero := by simp [Config.cfg]
  fricFreqShift_le := by have := Config.fricFreqShift.isLt; simp only [Config.cfg]; omega
  amMix_zero := by simp [Config.cfg]
  amShift_le := by have := Config.amShift.isLt; simp only [Config.cfg]; omega

end Sys2Proof
end

