-- ==== Sys2Proof/Laws/PerInstr.lean ====
section
/-! SUPPORT. Statements about every command as syntax, one lemma per constructor: the opcode field of a command's word is
its opcode (30_encoding.md R91, R92). -/

namespace Sys2Proof.Laws.EncodedOpcode

open Sys2Proof

/-- `w[31:28]` of the command's word is the command's opcode. -/
def Statement (i : Instr) : Prop := opcodeOf (encode i) = opcodeBits i

theorem opcode_formatR (op : BitVec 4) (reg : BitVec 8) (imm : Half) : opcodeOf (formatR op reg imm) = op := by
  ext i hi
  simp only [opcodeOf, formatR, BitVec.getElem_extractLsb', BitVec.getLsbD_append]
  rw [if_neg (by omega), if_neg (by omega), if_neg (by omega)]
  simp only [show 28 + i - 16 - 4 - 8 = i by omega, BitVec.getLsbD_eq_getElem hi]

theorem opcode_formatC (op : BitVec 4) (src : BitVec 2) (count : Half) : opcodeOf (formatC op src count) = op := by
  ext i hi
  simp only [opcodeOf, formatC, BitVec.getElem_extractLsb', BitVec.getLsbD_append]
  rw [if_neg (by omega), if_neg (by omega), if_neg (by omega)]
  simp only [show 28 + i - 16 - 2 - 10 = i by omega, BitVec.getLsbD_eq_getElem hi]

theorem nop : Statement .nop := by unfold Statement; decide
theorem wrl (reg : BitVec 8) (imm : Half) : Statement (.wrl reg imm) := opcode_formatR _ _ _
theorem wrh (reg : BitVec 8) (imm : Half) : Statement (.wrh reg imm) := opcode_formatR _ _ _
theorem rd (reg : BitVec 8) : Statement (.rd reg) := opcode_formatR _ _ _
theorem play (src : Source) (count : Half) : Statement (.play src count) := opcode_formatC _ _ _
theorem cenv (src : Source) : Statement (.cenv src) := opcode_formatC _ _ _
theorem rform (count : Half) : Statement (.rform count) := opcode_formatC _ _ _
theorem rfric (count : Half) : Statement (.rfric count) := opcode_formatC _ _ _
theorem rsil (count : Half) : Statement (.rsil count) := opcode_formatC _ _ _
theorem reset : Statement .reset := by unfold Statement; decide

end Sys2Proof.Laws.EncodedOpcode
end

