-- ==== Sys2Proof/Laws/Decode.lean ====
section
/-! SUPPORT. The fields of a word of each format (30_encoding.md R91), and the two answers of `withZero`. -/

namespace Sys2Proof

theorem withZero_pos {n : Nat} {zero : BitVec n} (h : zero = 0#n) (i : Instr) : withZero zero i = .command i :=
  if_pos h

theorem withZero_neg {n : Nat} {zero : BitVec n} (h : zero ≠ 0#n) (i : Instr) :
    withZero zero i = .illegal .mustBeZero := if_neg h

theorem withZero_command {n : Nat} {zero : BitVec n} {i k : Instr} (h : withZero zero i = .command k) :
    zero = 0#n ∧ i = k := by
  unfold withZero at h
  split at h
  · next hz => injection h with h; exact ⟨hz, h⟩
  · cases h

@[simp] theorem sourceOf_sourceBits (x : Source) : sourceOf (sourceBits x) = x := by cases x <;> rfl

@[simp] theorem sourceBits_sourceOf (b : BitVec 2) : sourceBits (sourceOf b) = b := by revert b; decide

section
variable (op : BitVec 4) (reg : BitVec 8) (imm : Half) (src : BitVec 2)

@[simp] theorem regField_formatR : regField (formatR op reg imm) = reg := by
  ext i hi
  simp only [regField, formatR, BitVec.getElem_extractLsb', BitVec.getLsbD_append]
  rw [if_neg (by omega), if_neg (by omega), if_pos (by omega)]
  simp only [show 20 + i - 16 - 4 = i by omega, BitVec.getLsbD_eq_getElem hi]

@[simp] theorem lowField_formatR : lowField (formatR op reg imm) = imm := by
  ext i hi
  simp only [lowField, formatR, BitVec.getElem_extractLsb', BitVec.getLsbD_append]
  rw [if_pos (by omega)]
  simp [hi]

@[simp] theorem zero_formatR : (formatR op reg imm).extractLsb' 16 4 = 0#4 := by
  ext i hi
  simp only [formatR, BitVec.getElem_extractLsb', BitVec.getLsbD_append]
  rw [if_neg (by omega), if_pos (by omega)]
  simp

@[simp] theorem zero_formatR_rd : (formatR op reg 0#16).extractLsb' 0 20 = 0#20 := by
  ext i hi
  simp only [formatR, BitVec.getElem_extractLsb', BitVec.getLsbD_append]
  by_cases h : i < 16
  · rw [if_pos (by omega)]; simp
  · rw [if_neg (by omega), if_pos (by omega)]; simp

@[simp] theorem srcField_formatC : srcField (formatC op src imm) = src := by
  ext i hi
  simp only [srcField, formatC, BitVec.getElem_extractLsb', BitVec.getLsbD_append]
  rw [if_neg (by omega), if_pos (by omega)]
  simp only [show 16 + i - 16 = i by omega, BitVec.getLsbD_eq_getElem hi]

@[simp] theorem lowField_formatC : lowField (formatC op src imm) = imm := by
  ext i hi
  simp only [lowField, formatC, BitVec.getElem_extractLsb', BitVec.getLsbD_append]
  rw [if_pos (by omega)]
  simp [hi]

@[simp] theorem zero_formatC : (formatC op src imm).extractLsb' 18 10 = 0#10 := by
  ext i hi
  simp only [formatC, BitVec.getElem_extractLsb', BitVec.getLsbD_append]
  rw [if_neg (by omega), if_neg (by omega), if_pos (by omega)]
  simp

@[simp] theorem zero_formatC_render : (formatC op 0#2 imm).extractLsb' 16 12 = 0#12 := by
  ext i hi
  simp only [formatC, BitVec.getElem_extractLsb', BitVec.getLsbD_append]
  by_cases h : i < 2
  · rw [if_neg (by omega), if_pos (by omega)]; simp
  · rw [if_neg (by omega), if_neg (by omega), if_pos (by omega)]; simp

/-- A word of format R is the number `op << 28 | reg << 20 | imm16` (30_encoding.md R101). -/
theorem formatR_toNat :
    (formatR op reg imm).toNat = op.toNat * 2 ^ 28 + reg.toNat * 2 ^ 20 + imm.toNat := by
  have h1 := imm.isLt; have h2 := reg.isLt
  simp only [formatR, BitVec.toNat_append, BitVec.toNat_ofNat]
  rw [← Nat.shiftLeft_add_eq_or_of_lt (by omega), ← Nat.shiftLeft_add_eq_or_of_lt (by omega),
    ← Nat.shiftLeft_add_eq_or_of_lt (by omega)]
  simp only [Nat.shiftLeft_eq]; omega

/-- A word of format C is the number `op << 28 | src << 16 | count` (30_encoding.md R101). -/
theorem formatC_toNat :
    (formatC op src imm).toNat = op.toNat * 2 ^ 28 + src.toNat * 2 ^ 16 + imm.toNat := by
  have h1 := imm.isLt; have h2 := src.isLt
  simp only [formatC, BitVec.toNat_append, BitVec.toNat_ofNat]
  rw [← Nat.shiftLeft_add_eq_or_of_lt (by omega), ← Nat.shiftLeft_add_eq_or_of_lt (by omega),
    ← Nat.shiftLeft_add_eq_or_of_lt (by omega)]
  simp only [Nat.shiftLeft_eq]; omega

end

/-- The fields of a word as numbers. -/
theorem opcodeOf_toNat (w : Word) : (opcodeOf w).toNat = w.toNat / 2 ^ 28 := by
  have := w.isLt
  simp only [opcodeOf, BitVec.extractLsb'_toNat, Nat.shiftRight_eq_div_pow]
  exact Nat.mod_eq_of_lt (by omega)

theorem regField_toNat (w : Word) : (regField w).toNat = w.toNat / 2 ^ 20 % 256 := by
  simp [regField, Nat.shiftRight_eq_div_pow]

theorem srcField_toNat (w : Word) : (srcField w).toNat = w.toNat / 2 ^ 16 % 4 := by
  simp [srcField, Nat.shiftRight_eq_div_pow]

theorem lowField_toNat (w : Word) : (lowField w).toNat = w.toNat % 2 ^ 16 := by
  simp [lowField]

end Sys2Proof
end

