-- ==== Sys2Proof/Laws/State.lean ====
section
/-! SUPPORT. One lemma per field per update of State, true by rfl, so that no proof unfolds a record update. -/

namespace Sys2Proof.Machine.State

open Sys2Proof

variable (t : State)

@[simp] theorem withOsc_osc (v : Vec7 Osc) : (t.withOsc v).osc = v := rfl
@[simp] theorem withOsc_fosc (v : Vec7 Osc) : (t.withOsc v).fosc = t.fosc := rfl
@[simp] theorem withOsc_start (v : Vec7 Osc) : (t.withOsc v).start = t.start := rfl
@[simp] theorem withOsc_stop (v : Vec7 Osc) : (t.withOsc v).stop = t.stop := rfl
@[simp] theorem withOsc_cur (v : Vec7 Osc) : (t.withOsc v).cur = t.cur := rfl
@[simp] theorem withOsc_ctrl (v : Vec7 Osc) : (t.withOsc v).ctrl = t.ctrl := rfl
@[simp] theorem withOsc_status (v : Vec7 Osc) : (t.withOsc v).status = t.status := rfl
@[simp] theorem withOsc_badcmd (v : Vec7 Osc) : (t.withOsc v).badcmd = t.badcmd := rfl
@[simp] theorem withOsc_seq (v : Vec7 Osc) : (t.withOsc v).seq = t.seq := rfl
@[simp] theorem withOsc_cmds (v : Vec7 Osc) : (t.withOsc v).cmds = t.cmds := rfl
@[simp] theorem withOsc_samples (v : Vec7 Osc) : (t.withOsc v).samples = t.samples := rfl
@[simp] theorem withOsc_responses (v : Vec7 Osc) : (t.withOsc v).responses = t.responses := rfl
@[simp] theorem withOsc_rst (v : Vec7 Osc) : (t.withOsc v).rst = t.rst := rfl
@[simp] theorem withOsc_smpReady (v : Vec7 Osc) : (t.withOsc v).smpReady = t.smpReady := rfl
@[simp] theorem withOsc_rspReady (v : Vec7 Osc) : (t.withOsc v).rspReady = t.rspReady := rfl
/-- Writing back what `osc` holds changes nothing. -/
@[simp] theorem withOsc_self : t.withOsc t.osc = t := rfl
/-- The later of two writes of `osc` stays. -/
@[simp] theorem withOsc_withOsc (v w : Vec7 Osc) : (t.withOsc v).withOsc w = t.withOsc w := rfl

@[simp] theorem withFosc_osc (v : Vec3 Fosc) : (t.withFosc v).osc = t.osc := rfl
@[simp] theorem withFosc_fosc (v : Vec3 Fosc) : (t.withFosc v).fosc = v := rfl
@[simp] theorem withFosc_start (v : Vec3 Fosc) : (t.withFosc v).start = t.start := rfl
@[simp] theorem withFosc_stop (v : Vec3 Fosc) : (t.withFosc v).stop = t.stop := rfl
@[simp] theorem withFosc_cur (v : Vec3 Fosc) : (t.withFosc v).cur = t.cur := rfl
@[simp] theorem withFosc_ctrl (v : Vec3 Fosc) : (t.withFosc v).ctrl = t.ctrl := rfl
@[simp] theorem withFosc_status (v : Vec3 Fosc) : (t.withFosc v).status = t.status := rfl
@[simp] theorem withFosc_badcmd (v : Vec3 Fosc) : (t.withFosc v).badcmd = t.badcmd := rfl
@[simp] theorem withFosc_seq (v : Vec3 Fosc) : (t.withFosc v).seq = t.seq := rfl
@[simp] theorem withFosc_cmds (v : Vec3 Fosc) : (t.withFosc v).cmds = t.cmds := rfl
@[simp] theorem withFosc_samples (v : Vec3 Fosc) : (t.withFosc v).samples = t.samples := rfl
@[simp] theorem withFosc_responses (v : Vec3 Fosc) : (t.withFosc v).responses = t.responses := rfl
@[simp] theorem withFosc_rst (v : Vec3 Fosc) : (t.withFosc v).rst = t.rst := rfl
@[simp] theorem withFosc_smpReady (v : Vec3 Fosc) : (t.withFosc v).smpReady = t.smpReady := rfl
@[simp] theorem withFosc_rspReady (v : Vec3 Fosc) : (t.withFosc v).rspReady = t.rspReady := rfl
/-- Writing back what `fosc` holds changes nothing. -/
@[simp] theorem withFosc_self : t.withFosc t.fosc = t := rfl
/-- The later of two writes of `fosc` stays. -/
@[simp] theorem withFosc_withFosc (v w : Vec3 Fosc) : (t.withFosc v).withFosc w = t.withFosc w := rfl

@[simp] theorem withStart_osc (v : Vec4 Half) : (t.withStart v).osc = t.osc := rfl
@[simp] theorem withStart_fosc (v : Vec4 Half) : (t.withStart v).fosc = t.fosc := rfl
@[simp] theorem withStart_start (v : Vec4 Half) : (t.withStart v).start = v := rfl
@[simp] theorem withStart_stop (v : Vec4 Half) : (t.withStart v).stop = t.stop := rfl
@[simp] theorem withStart_cur (v : Vec4 Half) : (t.withStart v).cur = t.cur := rfl
@[simp] theorem withStart_ctrl (v : Vec4 Half) : (t.withStart v).ctrl = t.ctrl := rfl
@[simp] theorem withStart_status (v : Vec4 Half) : (t.withStart v).status = t.status := rfl
@[simp] theorem withStart_badcmd (v : Vec4 Half) : (t.withStart v).badcmd = t.badcmd := rfl
@[simp] theorem withStart_seq (v : Vec4 Half) : (t.withStart v).seq = t.seq := rfl
@[simp] theorem withStart_cmds (v : Vec4 Half) : (t.withStart v).cmds = t.cmds := rfl
@[simp] theorem withStart_samples (v : Vec4 Half) : (t.withStart v).samples = t.samples := rfl
@[simp] theorem withStart_responses (v : Vec4 Half) : (t.withStart v).responses = t.responses := rfl
@[simp] theorem withStart_rst (v : Vec4 Half) : (t.withStart v).rst = t.rst := rfl
@[simp] theorem withStart_smpReady (v : Vec4 Half) : (t.withStart v).smpReady = t.smpReady := rfl
@[simp] theorem withStart_rspReady (v : Vec4 Half) : (t.withStart v).rspReady = t.rspReady := rfl
/-- Writing back what `start` holds changes nothing. -/
@[simp] theorem withStart_self : t.withStart t.start = t := rfl
/-- The later of two writes of `start` stays. -/
@[simp] theorem withStart_withStart (v w : Vec4 Half) : (t.withStart v).withStart w = t.withStart w := rfl

@[simp] theorem withStop_osc (v : Vec4 Half) : (t.withStop v).osc = t.osc := rfl
@[simp] theorem withStop_fosc (v : Vec4 Half) : (t.withStop v).fosc = t.fosc := rfl
@[simp] theorem withStop_start (v : Vec4 Half) : (t.withStop v).start = t.start := rfl
@[simp] theorem withStop_stop (v : Vec4 Half) : (t.withStop v).stop = v := rfl
@[simp] theorem withStop_cur (v : Vec4 Half) : (t.withStop v).cur = t.cur := rfl
@[simp] theorem withStop_ctrl (v : Vec4 Half) : (t.withStop v).ctrl = t.ctrl := rfl
@[simp] theorem withStop_status (v : Vec4 Half) : (t.withStop v).status = t.status := rfl
@[simp] theorem withStop_badcmd (v : Vec4 Half) : (t.withStop v).badcmd = t.badcmd := rfl
@[simp] theorem withStop_seq (v : Vec4 Half) : (t.withStop v).seq = t.seq := rfl
@[simp] theorem withStop_cmds (v : Vec4 Half) : (t.withStop v).cmds = t.cmds := rfl
@[simp] theorem withStop_samples (v : Vec4 Half) : (t.withStop v).samples = t.samples := rfl
@[simp] theorem withStop_responses (v : Vec4 Half) : (t.withStop v).responses = t.responses := rfl
@[simp] theorem withStop_rst (v : Vec4 Half) : (t.withStop v).rst = t.rst := rfl
@[simp] theorem withStop_smpReady (v : Vec4 Half) : (t.withStop v).smpReady = t.smpReady := rfl
@[simp] theorem withStop_rspReady (v : Vec4 Half) : (t.withStop v).rspReady = t.rspReady := rfl
/-- Writing back what `stop` holds changes nothing. -/
@[simp] theorem withStop_self : t.withStop t.stop = t := rfl
/-- The later of two writes of `stop` stays. -/
@[simp] theorem withStop_withStop (v w : Vec4 Half) : (t.withStop v).withStop w = t.withStop w := rfl

@[simp] theorem withCur_osc (v : Vec4 Half) : (t.withCur v).osc = t.osc := rfl
@[simp] theorem withCur_fosc (v : Vec4 Half) : (t.withCur v).fosc = t.fosc := rfl
@[simp] theorem withCur_start (v : Vec4 Half) : (t.withCur v).start = t.start := rfl
@[simp] theorem withCur_stop (v : Vec4 Half) : (t.withCur v).stop = t.stop := rfl
@[simp] theorem withCur_cur (v : Vec4 Half) : (t.withCur v).cur = v := rfl
@[simp] theorem withCur_ctrl (v : Vec4 Half) : (t.withCur v).ctrl = t.ctrl := rfl
@[simp] theorem withCur_status (v : Vec4 Half) : (t.withCur v).status = t.status := rfl
@[simp] theorem withCur_badcmd (v : Vec4 Half) : (t.withCur v).badcmd = t.badcmd := rfl
@[simp] theorem withCur_seq (v : Vec4 Half) : (t.withCur v).seq = t.seq := rfl
@[simp] theorem withCur_cmds (v : Vec4 Half) : (t.withCur v).cmds = t.cmds := rfl
@[simp] theorem withCur_samples (v : Vec4 Half) : (t.withCur v).samples = t.samples := rfl
@[simp] theorem withCur_responses (v : Vec4 Half) : (t.withCur v).responses = t.responses := rfl
@[simp] theorem withCur_rst (v : Vec4 Half) : (t.withCur v).rst = t.rst := rfl
@[simp] theorem withCur_smpReady (v : Vec4 Half) : (t.withCur v).smpReady = t.smpReady := rfl
@[simp] theorem withCur_rspReady (v : Vec4 Half) : (t.withCur v).rspReady = t.rspReady := rfl
/-- Writing back what `cur` holds changes nothing. -/
@[simp] theorem withCur_self : t.withCur t.cur = t := rfl
/-- The later of two writes of `cur` stays. -/
@[simp] theorem withCur_withCur (v w : Vec4 Half) : (t.withCur v).withCur w = t.withCur w := rfl

@[simp] theorem withCtrl_osc (v : Ctrl) : (t.withCtrl v).osc = t.osc := rfl
@[simp] theorem withCtrl_fosc (v : Ctrl) : (t.withCtrl v).fosc = t.fosc := rfl
@[simp] theorem withCtrl_start (v : Ctrl) : (t.withCtrl v).start = t.start := rfl
@[simp] theorem withCtrl_stop (v : Ctrl) : (t.withCtrl v).stop = t.stop := rfl
@[simp] theorem withCtrl_cur (v : Ctrl) : (t.withCtrl v).cur = t.cur := rfl
@[simp] theorem withCtrl_ctrl (v : Ctrl) : (t.withCtrl v).ctrl = v := rfl
@[simp] theorem withCtrl_status (v : Ctrl) : (t.withCtrl v).status = t.status := rfl
@[simp] theorem withCtrl_badcmd (v : Ctrl) : (t.withCtrl v).badcmd = t.badcmd := rfl
@[simp] theorem withCtrl_seq (v : Ctrl) : (t.withCtrl v).seq = t.seq := rfl
@[simp] theorem withCtrl_cmds (v : Ctrl) : (t.withCtrl v).cmds = t.cmds := rfl
@[simp] theorem withCtrl_samples (v : Ctrl) : (t.withCtrl v).samples = t.samples := rfl
@[simp] theorem withCtrl_responses (v : Ctrl) : (t.withCtrl v).responses = t.responses := rfl
@[simp] theorem withCtrl_rst (v : Ctrl) : (t.withCtrl v).rst = t.rst := rfl
@[simp] theorem withCtrl_smpReady (v : Ctrl) : (t.withCtrl v).smpReady = t.smpReady := rfl
@[simp] theorem withCtrl_rspReady (v : Ctrl) : (t.withCtrl v).rspReady = t.rspReady := rfl
/-- Writing back what `ctrl` holds changes nothing. -/
@[simp] theorem withCtrl_self : t.withCtrl t.ctrl = t := rfl
/-- The later of two writes of `ctrl` stays. -/
@[simp] theorem withCtrl_withCtrl (v w : Ctrl) : (t.withCtrl v).withCtrl w = t.withCtrl w := rfl

@[simp] theorem withStatus_osc (v : Status) : (t.withStatus v).osc = t.osc := rfl
@[simp] theorem withStatus_fosc (v : Status) : (t.withStatus v).fosc = t.fosc := rfl
@[simp] theorem withStatus_start (v : Status) : (t.withStatus v).start = t.start := rfl
@[simp] theorem withStatus_stop (v : Status) : (t.withStatus v).stop = t.stop := rfl
@[simp] theorem withStatus_cur (v : Status) : (t.withStatus v).cur = t.cur := rfl
@[simp] theorem withStatus_ctrl (v : Status) : (t.withStatus v).ctrl = t.ctrl := rfl
@[simp] theorem withStatus_status (v : Status) : (t.withStatus v).status = v := rfl
@[simp] theorem withStatus_badcmd (v : Status) : (t.withStatus v).badcmd = t.badcmd := rfl
@[simp] theorem withStatus_seq (v : Status) : (t.withStatus v).seq = t.seq := rfl
@[simp] theorem withStatus_cmds (v : Status) : (t.withStatus v).cmds = t.cmds := rfl
@[simp] theorem withStatus_samples (v : Status) : (t.withStatus v).samples = t.samples := rfl
@[simp] theorem withStatus_responses (v : Status) : (t.withStatus v).responses = t.responses := rfl
@[simp] theorem withStatus_rst (v : Status) : (t.withStatus v).rst = t.rst := rfl
@[simp] theorem withStatus_smpReady (v : Status) : (t.withStatus v).smpReady = t.smpReady := rfl
@[simp] theorem withStatus_rspReady (v : Status) : (t.withStatus v).rspReady = t.rspReady := rfl
/-- Writing back what `status` holds changes nothing. -/
@[simp] theorem withStatus_self : t.withStatus t.status = t := rfl
/-- The later of two writes of `status` stays. -/
@[simp] theorem withStatus_withStatus (v w : Status) : (t.withStatus v).withStatus w = t.withStatus w := rfl

@[simp] theorem withBadcmd_osc (v : Word) : (t.withBadcmd v).osc = t.osc := rfl
@[simp] theorem withBadcmd_fosc (v : Word) : (t.withBadcmd v).fosc = t.fosc := rfl
@[simp] theorem withBadcmd_start (v : Word) : (t.withBadcmd v).start = t.start := rfl
@[simp] theorem withBadcmd_stop (v : Word) : (t.withBadcmd v).stop = t.stop := rfl
@[simp] theorem withBadcmd_cur (v : Word) : (t.withBadcmd v).cur = t.cur := rfl
@[simp] theorem withBadcmd_ctrl (v : Word) : (t.withBadcmd v).ctrl = t.ctrl := rfl
@[simp] theorem withBadcmd_status (v : Word) : (t.withBadcmd v).status = t.status := rfl
@[simp] theorem withBadcmd_badcmd (v : Word) : (t.withBadcmd v).badcmd = v := rfl
@[simp] theorem withBadcmd_seq (v : Word) : (t.withBadcmd v).seq = t.seq := rfl
@[simp] theorem withBadcmd_cmds (v : Word) : (t.withBadcmd v).cmds = t.cmds := rfl
@[simp] theorem withBadcmd_samples (v : Word) : (t.withBadcmd v).samples = t.samples := rfl
@[simp] theorem withBadcmd_responses (v : Word) : (t.withBadcmd v).responses = t.responses := rfl
@[simp] theorem withBadcmd_rst (v : Word) : (t.withBadcmd v).rst = t.rst := rfl
@[simp] theorem withBadcmd_smpReady (v : Word) : (t.withBadcmd v).smpReady = t.smpReady := rfl
@[simp] theorem withBadcmd_rspReady (v : Word) : (t.withBadcmd v).rspReady = t.rspReady := rfl
/-- Writing back what `badcmd` holds changes nothing. -/
@[simp] theorem withBadcmd_self : t.withBadcmd t.badcmd = t := rfl
/-- The later of two writes of `badcmd` stays. -/
@[simp] theorem withBadcmd_withBadcmd (v w : Word) : (t.withBadcmd v).withBadcmd w = t.withBadcmd w := rfl

@[simp] theorem withSeq_osc (v : Seq) : (t.withSeq v).osc = t.osc := rfl
@[simp] theorem withSeq_fosc (v : Seq) : (t.withSeq v).fosc = t.fosc := rfl
@[simp] theorem withSeq_start (v : Seq) : (t.withSeq v).start = t.start := rfl
@[simp] theorem withSeq_stop (v : Seq) : (t.withSeq v).stop = t.stop := rfl
@[simp] theorem withSeq_cur (v : Seq) : (t.withSeq v).cur = t.cur := rfl
@[simp] theorem withSeq_ctrl (v : Seq) : (t.withSeq v).ctrl = t.ctrl := rfl
@[simp] theorem withSeq_status (v : Seq) : (t.withSeq v).status = t.status := rfl
@[simp] theorem withSeq_badcmd (v : Seq) : (t.withSeq v).badcmd = t.badcmd := rfl
@[simp] theorem withSeq_seq (v : Seq) : (t.withSeq v).seq = v := rfl
@[simp] theorem withSeq_cmds (v : Seq) : (t.withSeq v).cmds = t.cmds := rfl
@[simp] theorem withSeq_samples (v : Seq) : (t.withSeq v).samples = t.samples := rfl
@[simp] theorem withSeq_responses (v : Seq) : (t.withSeq v).responses = t.responses := rfl
@[simp] theorem withSeq_rst (v : Seq) : (t.withSeq v).rst = t.rst := rfl
@[simp] theorem withSeq_smpReady (v : Seq) : (t.withSeq v).smpReady = t.smpReady := rfl
@[simp] theorem withSeq_rspReady (v : Seq) : (t.withSeq v).rspReady = t.rspReady := rfl
/-- Writing back what `seq` holds changes nothing. -/
@[simp] theorem withSeq_self : t.withSeq t.seq = t := rfl
/-- The later of two writes of `seq` stays. -/
@[simp] theorem withSeq_withSeq (v w : Seq) : (t.withSeq v).withSeq w = t.withSeq w := rfl

@[simp] theorem withCmds_osc (v : List Word) : (t.withCmds v).osc = t.osc := rfl
@[simp] theorem withCmds_fosc (v : List Word) : (t.withCmds v).fosc = t.fosc := rfl
@[simp] theorem withCmds_start (v : List Word) : (t.withCmds v).start = t.start := rfl
@[simp] theorem withCmds_stop (v : List Word) : (t.withCmds v).stop = t.stop := rfl
@[simp] theorem withCmds_cur (v : List Word) : (t.withCmds v).cur = t.cur := rfl
@[simp] theorem withCmds_ctrl (v : List Word) : (t.withCmds v).ctrl = t.ctrl := rfl
@[simp] theorem withCmds_status (v : List Word) : (t.withCmds v).status = t.status := rfl
@[simp] theorem withCmds_badcmd (v : List Word) : (t.withCmds v).badcmd = t.badcmd := rfl
@[simp] theorem withCmds_seq (v : List Word) : (t.withCmds v).seq = t.seq := rfl
@[simp] theorem withCmds_cmds (v : List Word) : (t.withCmds v).cmds = v := rfl
@[simp] theorem withCmds_samples (v : List Word) : (t.withCmds v).samples = t.samples := rfl
@[simp] theorem withCmds_responses (v : List Word) : (t.withCmds v).responses = t.responses := rfl
@[simp] theorem withCmds_rst (v : List Word) : (t.withCmds v).rst = t.rst := rfl
@[simp] theorem withCmds_smpReady (v : List Word) : (t.withCmds v).smpReady = t.smpReady := rfl
@[simp] theorem withCmds_rspReady (v : List Word) : (t.withCmds v).rspReady = t.rspReady := rfl
/-- Writing back what `cmds` holds changes nothing. -/
@[simp] theorem withCmds_self : t.withCmds t.cmds = t := rfl
/-- The later of two writes of `cmds` stays. -/
@[simp] theorem withCmds_withCmds (v w : List Word) : (t.withCmds v).withCmds w = t.withCmds w := rfl

@[simp] theorem withSamples_osc (v : List Byte) : (t.withSamples v).osc = t.osc := rfl
@[simp] theorem withSamples_fosc (v : List Byte) : (t.withSamples v).fosc = t.fosc := rfl
@[simp] theorem withSamples_start (v : List Byte) : (t.withSamples v).start = t.start := rfl
@[simp] theorem withSamples_stop (v : List Byte) : (t.withSamples v).stop = t.stop := rfl
@[simp] theorem withSamples_cur (v : List Byte) : (t.withSamples v).cur = t.cur := rfl
@[simp] theorem withSamples_ctrl (v : List Byte) : (t.withSamples v).ctrl = t.ctrl := rfl
@[simp] theorem withSamples_status (v : List Byte) : (t.withSamples v).status = t.status := rfl
@[simp] theorem withSamples_badcmd (v : List Byte) : (t.withSamples v).badcmd = t.badcmd := rfl
@[simp] theorem withSamples_seq (v : List Byte) : (t.withSamples v).seq = t.seq := rfl
@[simp] theorem withSamples_cmds (v : List Byte) : (t.withSamples v).cmds = t.cmds := rfl
@[simp] theorem withSamples_samples (v : List Byte) : (t.withSamples v).samples = v := rfl
@[simp] theorem withSamples_responses (v : List Byte) : (t.withSamples v).responses = t.responses := rfl
@[simp] theorem withSamples_rst (v : List Byte) : (t.withSamples v).rst = t.rst := rfl
@[simp] theorem withSamples_smpReady (v : List Byte) : (t.withSamples v).smpReady = t.smpReady := rfl
@[simp] theorem withSamples_rspReady (v : List Byte) : (t.withSamples v).rspReady = t.rspReady := rfl
/-- Writing back what `samples` holds changes nothing. -/
@[simp] theorem withSamples_self : t.withSamples t.samples = t := rfl
/-- The later of two writes of `samples` stays. -/
@[simp] theorem withSamples_withSamples (v w : List Byte) : (t.withSamples v).withSamples w = t.withSamples w := rfl

@[simp] theorem withResponses_osc (v : List Word) : (t.withResponses v).osc = t.osc := rfl
@[simp] theorem withResponses_fosc (v : List Word) : (t.withResponses v).fosc = t.fosc := rfl
@[simp] theorem withResponses_start (v : List Word) : (t.withResponses v).start = t.start := rfl
@[simp] theorem withResponses_stop (v : List Word) : (t.withResponses v).stop = t.stop := rfl
@[simp] theorem withResponses_cur (v : List Word) : (t.withResponses v).cur = t.cur := rfl
@[simp] theorem withResponses_ctrl (v : List Word) : (t.withResponses v).ctrl = t.ctrl := rfl
@[simp] theorem withResponses_status (v : List Word) : (t.withResponses v).status = t.status := rfl
@[simp] theorem withResponses_badcmd (v : List Word) : (t.withResponses v).badcmd = t.badcmd := rfl
@[simp] theorem withResponses_seq (v : List Word) : (t.withResponses v).seq = t.seq := rfl
@[simp] theorem withResponses_cmds (v : List Word) : (t.withResponses v).cmds = t.cmds := rfl
@[simp] theorem withResponses_samples (v : List Word) : (t.withResponses v).samples = t.samples := rfl
@[simp] theorem withResponses_responses (v : List Word) : (t.withResponses v).responses = v := rfl
@[simp] theorem withResponses_rst (v : List Word) : (t.withResponses v).rst = t.rst := rfl
@[simp] theorem withResponses_smpReady (v : List Word) : (t.withResponses v).smpReady = t.smpReady := rfl
@[simp] theorem withResponses_rspReady (v : List Word) : (t.withResponses v).rspReady = t.rspReady := rfl
/-- Writing back what `responses` holds changes nothing. -/
@[simp] theorem withResponses_self : t.withResponses t.responses = t := rfl
/-- The later of two writes of `responses` stays. -/
@[simp] theorem withResponses_withResponses (v w : List Word) : (t.withResponses v).withResponses w = t.withResponses w := rfl

@[simp] theorem withRst_osc (v : Bool) : (t.withRst v).osc = t.osc := rfl
@[simp] theorem withRst_fosc (v : Bool) : (t.withRst v).fosc = t.fosc := rfl
@[simp] theorem withRst_start (v : Bool) : (t.withRst v).start = t.start := rfl
@[simp] theorem withRst_stop (v : Bool) : (t.withRst v).stop = t.stop := rfl
@[simp] theorem withRst_cur (v : Bool) : (t.withRst v).cur = t.cur := rfl
@[simp] theorem withRst_ctrl (v : Bool) : (t.withRst v).ctrl = t.ctrl := rfl
@[simp] theorem withRst_status (v : Bool) : (t.withRst v).status = t.status := rfl
@[simp] theorem withRst_badcmd (v : Bool) : (t.withRst v).badcmd = t.badcmd := rfl
@[simp] theorem withRst_seq (v : Bool) : (t.withRst v).seq = t.seq := rfl
@[simp] theorem withRst_cmds (v : Bool) : (t.withRst v).cmds = t.cmds := rfl
@[simp] theorem withRst_samples (v : Bool) : (t.withRst v).samples = t.samples := rfl
@[simp] theorem withRst_responses (v : Bool) : (t.withRst v).responses = t.responses := rfl
@[simp] theorem withRst_rst (v : Bool) : (t.withRst v).rst = v := rfl
@[simp] theorem withRst_smpReady (v : Bool) : (t.withRst v).smpReady = t.smpReady := rfl
@[simp] theorem withRst_rspReady (v : Bool) : (t.withRst v).rspReady = t.rspReady := rfl
/-- Writing back what `rst` holds changes nothing. -/
@[simp] theorem withRst_self : t.withRst t.rst = t := rfl
/-- The later of two writes of `rst` stays. -/
@[simp] theorem withRst_withRst (v w : Bool) : (t.withRst v).withRst w = t.withRst w := rfl

@[simp] theorem withSmpReady_osc (v : Bool) : (t.withSmpReady v).osc = t.osc := rfl
@[simp] theorem withSmpReady_fosc (v : Bool) : (t.withSmpReady v).fosc = t.fosc := rfl
@[simp] theorem withSmpReady_start (v : Bool) : (t.withSmpReady v).start = t.start := rfl
@[simp] theorem withSmpReady_stop (v : Bool) : (t.withSmpReady v).stop = t.stop := rfl
@[simp] theorem withSmpReady_cur (v : Bool) : (t.withSmpReady v).cur = t.cur := rfl
@[simp] theorem withSmpReady_ctrl (v : Bool) : (t.withSmpReady v).ctrl = t.ctrl := rfl
@[simp] theorem withSmpReady_status (v : Bool) : (t.withSmpReady v).status = t.status := rfl
@[simp] theorem withSmpReady_badcmd (v : Bool) : (t.withSmpReady v).badcmd = t.badcmd := rfl
@[simp] theorem withSmpReady_seq (v : Bool) : (t.withSmpReady v).seq = t.seq := rfl
@[simp] theorem withSmpReady_cmds (v : Bool) : (t.withSmpReady v).cmds = t.cmds := rfl
@[simp] theorem withSmpReady_samples (v : Bool) : (t.withSmpReady v).samples = t.samples := rfl
@[simp] theorem withSmpReady_responses (v : Bool) : (t.withSmpReady v).responses = t.responses := rfl
@[simp] theorem withSmpReady_rst (v : Bool) : (t.withSmpReady v).rst = t.rst := rfl
@[simp] theorem withSmpReady_smpReady (v : Bool) : (t.withSmpReady v).smpReady = v := rfl
@[simp] theorem withSmpReady_rspReady (v : Bool) : (t.withSmpReady v).rspReady = t.rspReady := rfl
/-- Writing back what `smpReady` holds changes nothing. -/
@[simp] theorem withSmpReady_self : t.withSmpReady t.smpReady = t := rfl
/-- The later of two writes of `smpReady` stays. -/
@[simp] theorem withSmpReady_withSmpReady (v w : Bool) : (t.withSmpReady v).withSmpReady w = t.withSmpReady w := rfl

@[simp] theorem withRspReady_osc (v : Bool) : (t.withRspReady v).osc = t.osc := rfl
@[simp] theorem withRspReady_fosc (v : Bool) : (t.withRspReady v).fosc = t.fosc := rfl
@[simp] theorem withRspReady_start (v : Bool) : (t.withRspReady v).start = t.start := rfl
@[simp] theorem withRspReady_stop (v : Bool) : (t.withRspReady v).stop = t.stop := rfl
@[simp] theorem withRspReady_cur (v : Bool) : (t.withRspReady v).cur = t.cur := rfl
@[simp] theorem withRspReady_ctrl (v : Bool) : (t.withRspReady v).ctrl = t.ctrl := rfl
@[simp] theorem withRspReady_status (v : Bool) : (t.withRspReady v).status = t.status := rfl
@[simp] theorem withRspReady_badcmd (v : Bool) : (t.withRspReady v).badcmd = t.badcmd := rfl
@[simp] theorem withRspReady_seq (v : Bool) : (t.withRspReady v).seq = t.seq := rfl
@[simp] theorem withRspReady_cmds (v : Bool) : (t.withRspReady v).cmds = t.cmds := rfl
@[simp] theorem withRspReady_samples (v : Bool) : (t.withRspReady v).samples = t.samples := rfl
@[simp] theorem withRspReady_responses (v : Bool) : (t.withRspReady v).responses = t.responses := rfl
@[simp] theorem withRspReady_rst (v : Bool) : (t.withRspReady v).rst = t.rst := rfl
@[simp] theorem withRspReady_smpReady (v : Bool) : (t.withRspReady v).smpReady = t.smpReady := rfl
@[simp] theorem withRspReady_rspReady (v : Bool) : (t.withRspReady v).rspReady = v := rfl
/-- Writing back what `rspReady` holds changes nothing. -/
@[simp] theorem withRspReady_self : t.withRspReady t.rspReady = t := rfl
/-- The later of two writes of `rspReady` stays. -/
@[simp] theorem withRspReady_withRspReady (v w : Bool) : (t.withRspReady v).withRspReady w = t.withRspReady w := rfl

end Sys2Proof.Machine.State
end

