-- ==== Sys2Proof/Laws/Vec.lean ====
section
/-! SUPPORT. The small lemmas of the register files of fixed size. -/

namespace Sys2Proof

section
variable {α β : Type}

@[simp] theorem Vec7.get_ofFn (f : Fin 7 → α) (j : Fin 7) : (Vec7.ofFn f).get j = f j := by
  fin_cases j <;> rfl

@[simp] theorem Vec7.get_set (v : Vec7 α) (i j : Fin 7) (a : α) :
    (v.set i a).get j = if j = i then a else v.get j := by simp [Vec7.set]

@[simp] theorem Vec7.get_map (f : α → β) (v : Vec7 α) (j : Fin 7) : (v.map f).get j = f (v.get j) := by
  simp [Vec7.map]

theorem Vec7.ext_get {v w : Vec7 α} (h : ∀ j, v.get j = w.get j) : v = w :=
  Vec7.ext (h 0) (h 1) (h 2) (h 3) (h 4) (h 5) (h 6)

@[simp] theorem Vec7.map_map {γ : Type} (f : α → β) (g : β → γ) (v : Vec7 α) :
    (v.map f).map g = v.map fun a => g (f a) := Vec7.ext_get fun j => by simp

@[simp] theorem Vec7.map_id (v : Vec7 α) : v.map (fun a => a) = v := Vec7.ext_get fun j => by simp

@[simp] theorem Vec7.set_get (v : Vec7 α) (j : Fin 7) : v.set j (v.get j) = v :=
  Vec7.ext_get fun i => by simp only [Vec7.get_set]; split <;> simp_all

@[simp] theorem Vec7.set_set (v : Vec7 α) (j : Fin 7) (a b : α) : (v.set j a).set j b = v.set j b :=
  Vec7.ext_get fun i => by simp only [Vec7.get_set]; split <;> rfl

@[simp] theorem Vec4.get_ofFn (f : Fin 4 → α) (c : Fin 4) : (Vec4.ofFn f).get c = f c := by
  fin_cases c <;> rfl

@[simp] theorem Vec4.get_set (v : Vec4 α) (i c : Fin 4) (a : α) :
    (v.set i a).get c = if c = i then a else v.get c := by simp [Vec4.set]

theorem Vec4.ext_get {v w : Vec4 α} (h : ∀ c, v.get c = w.get c) : v = w :=
  Vec4.ext (h 0) (h 1) (h 2) (h 3)

@[simp] theorem Vec3.get_ofFn (f : Fin 3 → α) (k : Fin 3) : (Vec3.ofFn f).get k = f k := by
  fin_cases k <;> rfl

@[simp] theorem Vec3.get_set (v : Vec3 α) (i k : Fin 3) (a : α) :
    (v.set i a).get k = if k = i then a else v.get k := by simp [Vec3.set]

@[simp] theorem Vec3.get_map (f : α → β) (v : Vec3 α) (k : Fin 3) : (v.map f).get k = f (v.get k) := by
  simp [Vec3.map]

theorem Vec3.ext_get {v w : Vec3 α} (h : ∀ k, v.get k = w.get k) : v = w :=
  Vec3.ext (h 0) (h 1) (h 2)

@[simp] theorem Vec3.map_map {γ : Type} (f : α → β) (g : β → γ) (v : Vec3 α) :
    (v.map f).map g = v.map fun a => g (f a) := Vec3.ext_get fun k => by simp

@[simp] theorem Vec3.map_id (v : Vec3 α) : v.map (fun a => a) = v := Vec3.ext_get fun k => by simp

end

end Sys2Proof
end

