-- ==== Sys2Proof/Laws/Operations.lean ====
section
/-! SUPPORT. For each shared operation, one lemma that says everything it can do. Proofs cite these instead of unfolding
the operation. -/

namespace Sys2Proof.Machine

open Sys2Proof

/-! ### The channels, the error action, the resets -/

theorem emit_eq (x : Byte) (s : State) : emit x s = s.withSamples (s.samples ++ [x]) := rfl

theorem deliver_eq (v : Word) (s : State) : deliver v s = s.withResponses (s.responses ++ [v]) := rfl

theorem respond_ready {s : State} (h : s.rspReady = true) (v : Word) :
    respond v s = s.withResponses (s.responses ++ [v]) := by simp [respond, h, deliver_eq]

theorem respond_busy {s : State} (h : s.rspReady = false) (v : Word) :
    respond v s = s.withSeq { s.seq with rsp := v, st := .resp } := by simp [respond, h]

/-- `respond` writes the response channel or the sequencer and nothing else. -/
theorem respond_frame (v : Word) (s : State) :
    respond v s = (s.withResponses (respond v s).responses).withSeq (respond v s).seq := by
  unfold respond; split <;> rfl

theorem recordIll_first {s : State} (h : s.status.ill = false) (k : Cause) (w : Word) :
    recordIll k w s = (s.withStatus ⟨true, s.status.ovf, causeCode k⟩).withBadcmd w := by
  simp [recordIll, h]

theorem recordIll_again {s : State} (h : s.status.ill = true) (k : Cause) (w : Word) :
    recordIll k w s = s := by simp [recordIll, h]

/-- The record writes `STATUS` and `BADCMD` and nothing else. -/
theorem recordIll_frame (k : Cause) (w : Word) (s : State) :
    recordIll k w s = (s.withStatus (recordIll k w s).status).withBadcmd (recordIll k w s).badcmd := by
  unfold recordIll; split <;> rfl

theorem raiseIll_rd {w : Word} (h : opcodeOf w = 0x3#4) (k : Cause) (s : State) :
    raiseIll k w s = respond 0#32 (recordIll k w s) := by simp [raiseIll, h]

theorem raiseIll_other {w : Word} (h : opcodeOf w ≠ 0x3#4) (k : Cause) (s : State) :
    raiseIll k w s = recordIll k w s := by simp [raiseIll, h]

/-- The error action writes `STATUS`, `BADCMD`, the response channel and the sequencer, and nothing else. -/
theorem raiseIll_frame (k : Cause) (w : Word) (s : State) :
    raiseIll k w s =
      (((s.withStatus (raiseIll k w s).status).withBadcmd (raiseIll k w s).badcmd).withResponses
        (raiseIll k w s).responses).withSeq (raiseIll k w s).seq := by
  unfold raiseIll respond recordIll
  split <;> (try split) <;> (try split) <;> rfl

theorem clearIll_eq (s : State) :
    clearIll s = (s.withStatus ⟨false, s.status.ovf, 0#4⟩).withBadcmd 0#32 := rfl

theorem clearOvf_eq (s : State) : clearOvf s = s.withStatus ⟨s.status.ill, false, s.status.cause⟩ := rfl

/-- A reset leaves what is outside the block: the channels' record and the inputs. -/
theorem resetBlock_eq (s : State) :
    resetBlock s =
      (((((State.reset.withCmds s.cmds).withSamples s.samples).withResponses s.responses).withRst
        s.rst).withSmpReady s.smpReady).withRspReady s.rspReady := rfl

theorem noteOverflow_eq (acc : Int) (s : State) :
    noteOverflow acc s = s.withStatus ⟨s.status.ill, s.status.ovf || overflows acc, s.status.cause⟩ := by
  unfold noteOverflow
  cases h : overflows acc
  · simp; rfl
  · simp

/-! ### The default laws -/

@[simp] theorem withDefaultLaws_fricFreq (c : Cfg) :
    (withDefaultLaws c).fricFreq = defaultFricFreq c.fricFreqShift := rfl
@[simp] theorem withDefaultLaws_amMix (c : Cfg) : (withDefaultLaws c).amMix = defaultAmMix c.amShift := rfl

/-! ### The renderers -/

/-- The formant oscillators after a renderer has computed a sample. -/
def oscAfter (k : Kind) (s : State) : Vec7 Osc :=
  match k with
  | .formant => s.osc.map advance16
  | .fricative => s.osc.set 0 (advance16 (s.osc.get 0))
  | .silence => s.osc

/-- The fricative oscillators after a renderer has computed a sample. -/
def foscAfter (k : Kind) (s : State) : Vec3 Fosc :=
  match k with
  | .formant => s.fosc
  | .fricative => s.fosc.map advance32
  | .silence => s.fosc

/-- Whether the sum of a renderer's next sample does not fit. -/
def ovfOf (c : Cfg) (k : Kind) (s : State) : Bool :=
  match k with
  | .formant => overflows (formantAcc c s)
  | .fricative => overflows (fricativeAcc c s)
  | .silence => false

/-- All a renderer does to the state before the sample is offered. -/
theorem renderState_eq (c : Cfg) (k : Kind) (s : State) :
    renderState c k s =
      ((s.withOsc (oscAfter k s)).withFosc (foscAfter k s)).withStatus
        ⟨s.status.ill, s.status.ovf || ovfOf c k s, s.status.cause⟩ := by
  cases k
  · simp only [renderState, noteOverflow_eq, advanceBank, oscAfter, foscAfter, ovfOf]; rfl
  · simp only [renderState, noteOverflow_eq, advanceFric, oscAfter, foscAfter, ovfOf]; rfl
  · simp only [renderState, oscAfter, foscAfter, ovfOf, Bool.or_false]; rfl

/-- All one sample does when the sink accepts. -/
theorem sample_eq (c : Cfg) (k : Kind) (s : State) :
    sample c k s =
      (((s.withOsc (oscAfter k s)).withFosc (foscAfter k s)).withStatus
        ⟨s.status.ill, s.status.ovf || ovfOf c k s, s.status.cause⟩).withSamples
          (s.samples ++ [renderOut c k s]) := by
  rw [sample, renderState_eq, emit_eq]; rfl

@[simp] theorem samples_zero (c : Cfg) (k : Kind) (s : State) : samples c k 0 s = s := rfl

theorem samples_succ (c : Cfg) (k : Kind) (n : Nat) (s : State) :
    samples c k (n + 1) s = samples c k n (sample c k s) := rfl

theorem samples_succ' (c : Cfg) (k : Kind) (n : Nat) (s : State) :
    samples c k (n + 1) s = sample c k (samples c k n s) := Function.iterate_succ_apply' _ _ _

theorem samples_add (c : Cfg) (k : Kind) (m n : Nat) (s : State) :
    samples c k (m + n) s = samples c k n (samples c k m s) := by
  rw [Nat.add_comm]; exact Function.iterate_add_apply _ _ _ _

/-- A property that every sample keeps, a run of samples keeps. -/
theorem samples_induct {c : Cfg} {k : Kind} {P : State → Prop} (h : ∀ s, P s → P (sample c k s))
    (n : Nat) {s : State} (hs : P s) : P (samples c k n s) := by
  induction n generalizing s with
  | zero => exact hs
  | succ n ih => rw [samples_succ]; exact ih (h s hs)

/-- A run of samples writes the oscillators, `OVF` and the sample channel, and nothing else. -/
theorem samples_frame (c : Cfg) (k : Kind) (n : Nat) (s : State) :
    samples c k n s =
      (((s.withOsc (samples c k n s).osc).withFosc (samples c k n s).fosc).withStatus
        ⟨s.status.ill, (samples c k n s).status.ovf, s.status.cause⟩).withSamples
          (samples c k n s).samples := by
  induction n with
  | zero => rfl
  | succ n ih =>
    rw [samples_succ', sample_eq]
    generalize samples c k n s = t at ih
    rw [ih]; rfl

theorem renderCommand_zero (c : Cfg) (op : SeqOp) (k : Kind) (s : State) :
    renderCommand c op k 0#16 s = s := by simp [renderCommand]

/-- With a ready sink a renderer command is its run of samples, for every count. -/
theorem renderCommand_ready {s : State} (h : s.smpReady = true) (c : Cfg) (op : SeqOp) (k : Kind) (n : Half) :
    renderCommand c op k n s = samples c k n.toNat s := by
  by_cases hn : n = 0#16
  · subst hn; rw [renderCommand_zero]; rfl
  · rw [renderCommand, if_neg hn, h]; rfl

theorem renderCommand_busy {s : State} (h : s.smpReady = false) (c : Cfg) (op : SeqOp) (k : Kind) {n : Half}
    (hn : n ≠ 0#16) : renderCommand c op k n s = startRender op n s := by
  rw [renderCommand, if_neg hn, h]; rfl

/-! ### The envelope calculator -/

/-- All `CENV` can write: `CUR`, the formant and the fricative oscillators. -/
theorem cenv_frame (c : Cfg) (src : Source) (s : State) :
    cenv c src s =
      ((s.withCur (cenv c src s).cur).withOsc (cenv c src s).osc).withFosc (cenv c src s).fosc := by
  cases src <;> rfl

theorem upperShare_le (w f0 f : Nat) : upperShare w f0 f ≤ w := by
  unfold upperShare
  split
  · exact Nat.zero_le _
  · next h =>
    have h0 : f0 ≠ 0 := fun e => h (.inl e)
    have hr : f - harmonicNumber f0 f * f0 ≤ f0 := by
      simp only [harmonicNumber, h0, if_false]
      have := Nat.div_add_mod f f0
      have := Nat.mod_lt f (Nat.pos_of_ne_zero h0)
      rw [Nat.mul_comm]; omega
    exact Nat.div_le_of_le_mul (by rw [Nat.mul_comm f0]; exact Nat.mul_le_mul_left w hr)

theorem lowerShare_le (w f0 f : Nat) : lowerShare w f0 f ≤ w := by
  unfold lowerShare; split <;> omega

theorem rollOff_le (w : Nat) : rollOff w ≤ w := Nat.sub_le _ _

theorem weight_le (c : Cfg) (k : Fin 3) : weight c k ≤ c.ampMax := by
  fin_cases k
  · exact Nat.le_refl _
  · exact rollOff_le _
  · exact Nat.le_trans (rollOff_le _) (rollOff_le _)

@[simp] theorem timbreOf_packWave (t : BitVec 2) (a : Nat) : timbreOf (packWave t a) = t := by
  ext i hi
  simp only [timbreOf, packWave, BitVec.getElem_extractLsb', BitVec.getLsbD_append]
  simp [hi]

@[simp] theorem ampOf_packWave (t : BitVec 2) (a : Nat) : ampOf (packWave t a) = BitVec.ofNat 6 a := by
  ext i hi
  simp only [ampOf, packWave, BitVec.getElem_extractLsb', BitVec.getLsbD_append]
  simp [hi]

/-! ### The segment player -/

@[simp] theorem playSlices_zero (c : Cfg) (g : Segment) (i : Nat) (s : State) : playSlices c g i 0 s = s := rfl

theorem playSlices_succ (c : Cfg) (g : Segment) (i k : Nat) (s : State) :
    playSlices c g i (k + 1) s = playSlices c g (i + 1) k (playSlice c g i s) := rfl

theorem playSlices_add (c : Cfg) (g : Segment) (i m n : Nat) (s : State) :
    playSlices c g i (m + n) s = playSlices c g (i + m) n (playSlices c g i m s) := by
  induction m generalizing i s with
  | zero => simp
  | succ m ih =>
    rw [Nat.add_right_comm, playSlices_succ, playSlices_succ, ih]
    congr 1; omega

/-- A property that every slice keeps, a run of slices keeps. -/
theorem playSlices_induct {c : Cfg} {g : Segment} {P : State → Prop}
    (h : ∀ i s, P s → P (playSlice c g i s)) (i k : Nat) {s : State} (hs : P s) :
    P (playSlices c g i k s) := by
  induction k generalizing i s with
  | zero => exact hs
  | succ k ih => rw [playSlices_succ]; exact ih (i + 1) (h i s hs)

theorem play_zero (c : Cfg) (src : Source) (s : State) : play c src 0#16 s = s := by simp [play]

theorem play_silence (c : Cfg) (n : Half) (s : State) :
    play c .silence n s = samples c .silence (n.toNat * c.sliceLen) s := by
  unfold play
  split
  · next h0 => subst h0; simp
  · simp

theorem play_sound {src : Source} (h : src ≠ .silence) (c : Cfg) (n : Half) (s : State) :
    play c src n s = playSlices c (latch src n s) 0 n.toNat s := by
  by_cases hn : n = 0#16
  · subst hn; rw [play_zero]; rfl
  · rw [play, if_neg hn, if_neg h]

theorem playCommand_zero (c : Cfg) (src : Source) (s : State) : playCommand c src 0#16 s = s := by
  simp [playCommand]

theorem playCommand_ready {s : State} (h : s.smpReady = true) (c : Cfg) (src : Source) (n : Half) :
    playCommand c src n s = play c src n s := by
  by_cases hn : n = 0#16
  · subst hn; rw [playCommand_zero, play_zero]
  · rw [playCommand, if_neg hn, h]; rfl

theorem playCommand_busy {s : State} (h : s.smpReady = false) (c : Cfg) (src : Source) {n : Half} (hn : n ≠ 0#16) :
    playCommand c src n s = startPlay c src n s := by
  rw [playCommand, if_neg hn, h]; rfl

/-! ### The step -/

theorem step_rst {s : State} (h : s.rst = true) : step s = .next (hardReset s) := by simp [step, h]

theorem step_idle {s : State} (h : s.rst = false) (hst : s.seq.st = .idle) : step s = tickIdle s := by
  simp [step, h, hst]

theorem step_resp {s : State} (h : s.rst = false) (hst : s.seq.st = .resp) : step s = .next (tickResp s) := by
  simp [step, h, hst]

theorem step_slice {s : State} (h : s.rst = false) (hst : s.seq.st = .slice) :
    step s = .next (tickSlice Config.cfg s) := by simp [step, h, hst]

theorem step_render {s : State} (h : s.rst = false) (hst : s.seq.st = .render) :
    step s = .next (tickRender Config.cfg s) := by simp [step, h, hst]

theorem step_emit {s : State} (h : s.rst = false) (hst : s.seq.st = .emit) : step s = .next (tickEmit s) := by
  simp [step, h, hst]

/-- What a command without a refusal in it does to the state, by its arm. -/
def result (i : Instr) (s : State) : State :=
  match i with
  | .nop => s
  | .wrl reg imm => wrl Config.cfg reg imm s
  | .wrh reg imm => wrh reg imm s
  | .rd reg => rd Config.cfg reg s
  | .play src count => playCommand Config.cfg src count s
  | .cenv src => cenv Config.cfg src s
  | .rform count => renderCommand Config.cfg .rform .formant count s
  | .rfric count => renderCommand Config.cfg .rfric .fricative count s
  | .rsil count => renderCommand Config.cfg .rsil .silence count s
  | .reset => resetBlock s

/-- Every command's meaning is a next state. -/
theorem exec_eq (i : Instr) (s : State) : exec i s = .next (result i s) := by cases i <;> rfl

theorem acceptWord_command {w : Word} {i : Instr} (h : decode w = .command i) (s : State) :
    acceptWord w s = .next (result i s) := by simp [acceptWord, h, exec_eq]

theorem acceptWord_illegal {w : Word} {k : Cause} (h : decode w = .illegal k) (s : State) :
    acceptWord w s = .next (raiseIll k w s) := by simp [acceptWord, h]

/-- The five ways a step can go: the reset, a wait in IDLE, an accepted command, a refused word, a transition of the
sequencer. -/
theorem step_cases {s t : State} (h : step s = .next t) :
    (s.rst = true ∧ t = hardReset s) ∨
    (s.rst = false ∧ s.seq.st = .idle ∧ s.cmds = [] ∧ t = s) ∨
    (s.rst = false ∧ s.seq.st = .idle ∧ ∃ w ws, s.cmds = w :: ws ∧
      ((∃ i, decode w = .command i ∧ t = result i (s.withCmds ws)) ∨
        ∃ k, decode w = .illegal k ∧ t = raiseIll k w (s.withCmds ws))) ∨
    (s.rst = false ∧ s.seq.st = .resp ∧ t = tickResp s) ∨
    (s.rst = false ∧ s.seq.st = .slice ∧ t = tickSlice Config.cfg s) ∨
    (s.rst = false ∧ s.seq.st = .render ∧ t = tickRender Config.cfg s) ∨
    (s.rst = false ∧ s.seq.st = .emit ∧ t = tickEmit s) := by
  cases hr : s.rst
  · cases hst : s.seq.st
    · rw [step_idle hr hst, tickIdle] at h
      cases hc : s.cmds with
      | nil => rw [hc] at h; injection h with h; simp [h]
      | cons w ws =>
        rw [hc] at h
        cases hd : decode w with
        | command i =>
          simp only [acceptWord_command hd] at h
          injection h with h; simp [h, hd]
        | illegal k =>
          simp only [acceptWord_illegal hd] at h
          injection h with h; simp [h, hd]
    · rw [step_resp hr hst] at h; injection h with h; simp [h]
    · rw [step_slice hr hst] at h; injection h with h; simp [h]
    · rw [step_render hr hst] at h; injection h with h; simp [h]
    · rw [step_emit hr hst] at h; injection h with h; simp [h]
  · rw [step_rst hr] at h; injection h with h; simp [h]

end Sys2Proof.Machine
end

