-- ==== Sys2Proof/Machine/Pseudo.lean ====
section
/-! DEFINITION. The pseudo-instructions of 30_encoding.md R102, each a fixed list of commands. They are spellings of command
lists and no commands of their own: the block sees the words of the list. -/

namespace Sys2Proof.Machine

open Sys2Proof

/-- The pseudo-instructions (30_encoding.md R102). -/
inductive Pseudo where
  /-- `SETSTART a, b, c, d`. -/
  | setStart (f : Vec4 Half)
  /-- `SETEND a, b, c, d`. -/
  | setEnd (f : Vec4 Half)
  /-- `SETCUR a, b, c, d`. -/
  | setCur (f : Vec4 Half)
  /-- `PLAYSEG (a,b,c,d), (e,f,g,h), n, src`: the document's `playSegment`. -/
  | playSeg (first last : Vec4 Half) (count : Half) (src : Source)
  /-- `WR32 reg, v`: both halves of a 32-bit register. -/
  | wr32 (reg : BitVec 8) (v : Word)
  /-- `SETCTRL psync, timbre`. -/
  | setCtrl (psync : Bool) (timbre : BitVec 2)
  /-- `CLRERR`. -/
  | clrErr
  /-- `SYNC`. -/
  | sync
  deriving DecidableEq, Repr

/-- Four `WRL`, one for each channel of a FrequencySet. -/
def writeSet (reg : Fin 4 → Reg) (f : Vec4 Half) : List Instr :=
  [.wrl (regNumber (reg 0)) (f.get 0), .wrl (regNumber (reg 1)) (f.get 1), .wrl (regNumber (reg 2)) (f.get 2),
    .wrl (regNumber (reg 3)) (f.get 3)]

/-- The commands a pseudo-instruction stands for (30_encoding.md R102). -/
def expand (p : Pseudo) : List Instr :=
  match p with
  | .setStart f => writeSet .start f
  | .setEnd f => writeSet .stop f
  | .setCur f => writeSet .cur f
  | .playSeg first last count src => writeSet .start first ++ writeSet .stop last ++ [.play src count]
  | .wr32 reg v => [.wrl reg (v.extractLsb' 0 16), .wrh reg (v.extractLsb' 16 16)]
  | .setCtrl psync timbre => [.wrl (regNumber .ctrl) (0#13 ++ timbre ++ BitVec.ofBool psync)]
  | .clrErr => [.wrl (regNumber .status) 3#16]
  | .sync => [.nop]

end Sys2Proof.Machine
end

