-- ==== Sys2Proof/Tests/Slice0.lean ====
section
/-! SUPPORT. Tests: the vectors of 95_test_vectors.md under its configuration TC1, the smoke test of every check on a
command, words written out from 30_encoding.md, and for each obligation with hypotheses a state and operands that meet
them. Every expected result is the spec's. -/

namespace Sys2Proof.Tests

open Sys2Proof Sys2Proof.Machine Sys2Proof.Spec

/-! ### The test configuration TC1 (95_test_vectors.md, part 1) -/

/-- One period of a triangle wave of peak 24 over 32 entries. -/
def tri (i : Nat) : Int := if i ≤ 8 then 3 * i else if i ≤ 24 then 3 * (16 - (i : Int)) else 3 * ((i : Int) - 32)

/-- The 64 entries of the noise ROM. -/
def noiseEntries : List Int :=
  [6, -5, 8, 17, 3, -6, -2, 14, -9, 0, -8, 6, 12, 15, -15, -3] ++
  [20, 3, -2, -11, 16, 10, 0, -8, -13, 18, 16, -19, -14, -13, 1, -11] ++
  [11, -6, -11, 15, 15, 2, -4, 17, 0, 3, -3, 0, 4, 8, -14, 1] ++
  [-3, 10, 7, -5, 16, 0, -13, -1, -20, -7, -17, 8, -2, -11, -7, -17]

/-- TC1. -/
def tc1 : Cfg where
  ampMax := 16
  buzzBits := 5
  buzzShift := 11
  fricBits := 6
  sliceLen := 4
  buzz := fun t a i => BitVec.ofInt 8 (Int.tdiv (a.toNat * tri i) (16 * 2 ^ t.toNat))
  noise := fun i => BitVec.ofInt 8 (noiseEntries.getD i 0)
  fricFreq := defaultFricFreq 12
  fricFreqShift := 12
  amMix := defaultAmMix 7
  amShift := 7
  outNarrow := .wrap

/-! ### Ill-formed commands: one for each check of 60_exceptions.md R233 (3) to (5) -/

theorem test_wellFormed_wrl_start : (Instr.wrl 0x10#8 0x0800#16).WellFormed tc1 = true := by decide
theorem test_illFormed_wrl_register : (Instr.wrl 0x23#8 1#16).WellFormed tc1 = false := by decide
theorem test_illFormed_wrh_register : (Instr.wrh 0x0F#8 1#16).WellFormed tc1 = false := by decide
theorem test_illFormed_rd_register : (Instr.rd 0x50#8).WellFormed tc1 = false := by decide
theorem test_illFormed_wrl_sliceLen : (Instr.wrl 0x02#8 0xFFFF#16).WellFormed tc1 = false := by decide
theorem test_illFormed_wrl_badcmd : (Instr.wrl 0x03#8 0#16).WellFormed tc1 = false := by decide
theorem test_illFormed_wrh_start : (Instr.wrh 0x10#8 5#16).WellFormed tc1 = false := by decide
theorem test_illFormed_wrl_ctrl : (Instr.wrl 0x00#8 8#16).WellFormed tc1 = false := by decide
theorem test_illFormed_wrl_status : (Instr.wrl 0x01#8 4#16).WellFormed tc1 = false := by decide
theorem test_illFormed_wrl_wave_high : (Instr.wrl 0x22#8 0x0111#16).WellFormed tc1 = false := by decide
theorem test_illFormed_wrl_wave_step : (Instr.wrl 0x22#8 0x0011#16).WellFormed tc1 = false := by decide
theorem test_wellFormed_wrl_wave_step : (Instr.wrl 0x22#8 0x00D0#16).WellFormed tc1 = true := by decide

/-! ### Words written out from the formats of 30_encoding.md R91 and R92 -/

theorem test_decode_nop : decode 0b0000_0000000000000000000000000000#32 = .command .nop := by decide
theorem test_decode_wrl :
    decode 0b0001_00010000_0000_0000100000000000#32 = .command (.wrl 0x10#8 0x0800#16) := by decide
theorem test_decode_wrh :
    decode 0b0010_01000011_0000_1000000000000000#32 = .command (.wrh 0x43#8 0x8000#16) := by decide
theorem test_decode_rd : decode 0b0011_00100001_0000_0000000000000000#32 = .command (.rd 0x21#8) := by decide
theorem test_decode_play_buzz :
    decode 0b0100_0000000000_11_0000000000000011#32 = .command (.play .buzz 3#16) := by decide
theorem test_decode_play_frication :
    decode 0b0100_0000000000_10_1111111111111111#32 = .command (.play .frication 65535#16) := by decide
theorem test_decode_play_silence :
    decode 0b0100_0000000000_00_0000000000101000#32 = .command (.play .silence 40#16) := by decide
theorem test_decode_cenv :
    decode 0b0101_0000000000_01_0000000000000000#32 = .command (.cenv .aspiration) := by decide
theorem test_decode_rform :
    decode 0b0110_0000000000_00_0000000000000110#32 = .command (.rform 6#16) := by decide
theorem test_decode_rfric :
    decode 0b0111_0000000000_00_0000000000000101#32 = .command (.rfric 5#16) := by decide
theorem test_decode_rsil :
    decode 0b1000_0000000000_00_1111111111111111#32 = .command (.rsil 65535#16) := by decide
theorem test_decode_reset : decode 0b1111_0000000000000000000000000000#32 = .command .reset := by decide

/-! The words the decoder refuses (95_test_vectors.md 3.1; 60_exceptions.md R231). -/

theorem test_refused_9 : decode 0x9FFFFFFF#32 = .illegal .reservedOpcode := by decide
theorem test_refused_A : decode 0xA0000000#32 = .illegal .reservedOpcode := by decide
theorem test_refused_E : decode 0xE0000000#32 = .illegal .reservedOpcode := by decide
theorem test_refused_nop : decode 0x00000001#32 = .illegal .mustBeZero := by decide
theorem test_refused_reset : decode 0xF0000001#32 = .illegal .mustBeZero := by decide
theorem test_refused_wrl : decode 0x10010000#32 = .illegal .mustBeZero := by decide
theorem test_refused_wrl_register : decode 0x10F10000#32 = .illegal .mustBeZero := by decide
theorem test_refused_wrh : decode 0x20080000#32 = .illegal .mustBeZero := by decide
theorem test_refused_rd : decode 0x30100001#32 = .illegal .mustBeZero := by decide
theorem test_refused_play : decode 0x40040001#32 = .illegal .mustBeZero := by decide
theorem test_refused_cenv : decode 0x50030001#32 = .illegal .mustBeZero := by decide
theorem test_refused_rform : decode 0x60010004#32 = .illegal .mustBeZero := by decide
theorem test_refused_rfric : decode 0x78000001#32 = .illegal .mustBeZero := by decide
theorem test_refused_rsil : decode 0x80020000#32 = .illegal .mustBeZero := by decide

theorem test_decodeTableWord : decodeTableWord 32 0x40030003 = some (.play .buzz 3#16) := by decide
theorem test_encode_play : encode (.play .buzz 3#16) = 0x40030003#32 := by decide

/-! ### The primitives (95_test_vectors.md 3.2, 3.3, 3.4, 3.7) -/

theorem test_advance16 : (advance16 ⟨0x0C00#16, 0xF800#16, 0x10#8⟩).phase = 0x0400#16 := by decide
theorem test_noise_entry : noiseRaw tc1 ⟨0#32, 0x91A00000#32⟩ = 15#8 := by decide
theorem test_wave_timbre : oscOut tc1 ⟨1#16, 0xB800#16, 0x45#8⟩ = -3#8 := by decide
theorem test_osc_muted : oscOut tc1 ⟨0#16, 0x4321#16, 0x10#8⟩ = 0#8 := by decide
theorem test_amMix_floor : defaultAmMix 7 1#8 (-1#8) = -1 ∧ defaultAmMix 7 (-128#8) (-128#8) = 128 := by decide
theorem test_narrow_edges :
    (narrow8 tc1 127).toInt = 127 ∧ (narrow8 tc1 128).toInt = -128 ∧ overflows 127 = false ∧ overflows (-128) = false := by
  decide
theorem test_interp_down : (List.range 4).map (interp 1000 10 4) = [1000, 670, 340, 10] := by decide
theorem test_interp_midpoint : interp 0x0800 0x0901 1 0 = 0x0880 := by decide

/-! ### The commands: at most two each, one command on a small state -/

/-- The block after reset with `START` and `END` set. -/
def segment (a b : Vec4 Half) : State := { State.reset with start := a, stop := b }

/-- The block after reset with the first two formant oscillators of V-RFORM-1. -/
def twoOscs : State :=
  { State.reset with
    osc := (State.reset.osc.set 0 ⟨0x0800#16, 0#16, 0x10#8⟩).set 1 ⟨0x1800#16, 0#16, 0x0C#8⟩ }

/-- The block after reset, its channels' `CUR` and `OSC[0].PHASE` as in 42_envelope.md E1. -/
def envelopeStart (cur : Vec4 Half) : State :=
  { State.reset with cur := cur, osc := State.reset.osc.set 0 ⟨0#16, 0x1234#16, 0#8⟩ }

/-- The start state of program G4 before its `RFRIC 5`. -/
def noiseStart : State :=
  { State.reset with
    osc := State.reset.osc.set 0 ⟨0x0800#16, 0x3000#16, 0x10#8⟩
    fosc := ⟨⟨0x04000000#32, 0#32⟩, ⟨0x08000000#32, 0x80000000#32⟩, ⟨0#32, 0#32⟩⟩ }

/-- V-OVF: seven oscillators that peak together. -/
def loud : State := { State.reset with osc := .ofFn fun _ => ⟨1#16, 0x3FFF#16, 0x10#8⟩ }

theorem test_nop : exec .nop loud = .next loud := rfl
theorem test_wrl_ctrl : (wrl tc1 0x00#8 3#16 State.reset).ctrl = ⟨true, 1#2⟩ := by decide
theorem test_wrl_refused :
    statusWord (wrl tc1 0x22#8 0x0011#16 State.reset).status = 0x51#32 ∧
      (wrl tc1 0x22#8 0x0011#16 State.reset).badcmd = 0x12200011#32 := by decide
theorem test_wrh_keeps_low :
    ((wrh 0x43#8 0x8000#16 (wrl tc1 0x43#8 0x1234#16 State.reset)).fosc.get 1).phase = 0x80001234#32 := by decide
theorem test_wrh_refused : statusWord (wrh 0x10#8 5#16 State.reset).status = 0x41#32 := by decide
theorem test_rd_ctrl : (rd tc1 0x00#8 State.reset).responses = [1#32] := by decide
theorem test_rd_refused :
    (rd tc1 0x50#8 State.reset).responses = [0#32] ∧ statusWord (rd tc1 0x50#8 State.reset).status = 0x31#32 := by
  decide
theorem test_play_glide :
    (playCommand tc1 .buzz 3#16
      (segment ⟨0x0800#16, 0x1C00#16, 0x4A00#16, 0x7000#16⟩ ⟨0x0900#16, 0x1800#16, 0x4A00#16, 0#16⟩)).samples.map
        BitVec.toInt = [30, 16, 26, 15, 30, 3, -3, 17, 15, 10, 8, 24] := by decide +kernel
theorem test_play_single :
    (playCommand tc1 .buzz 1#16
      (segment ⟨0x0800#16, 0x1C00#16, 0x4A01#16, 0#16⟩ ⟨0x0901#16, 0x1800#16, 0x4A00#16, 0#16⟩)).samples =
        [28#8, 20#8, 19#8, 34#8] := by decide
theorem test_cenv_buzz :
    (cenv tc1 .buzz (envelopeStart ⟨0x0800#16, 0x1C00#16, 0x4A00#16, 0x7000#16⟩)).osc =
      ⟨⟨0x0800#16, 0x1234#16, 0x10#8⟩, ⟨0x1800#16, 0x369C#16, 0x08#8⟩, ⟨0x2000#16, 0x48D0#16, 0x08#8⟩,
        ⟨0x4800#16, 0xA3D4#16, 0x09#8⟩, ⟨0x5000#16, 0xB608#16, 0x03#8⟩, ⟨0x7000#16, 0xFED8#16, 0x09#8⟩,
        ⟨0x7800#16, 0x110C#16, 0x00#8⟩⟩ := by decide
theorem test_cenv_aspiration :
    ((cenv tc1 .aspiration (envelopeStart ⟨0x0800#16, 0x1C00#16, 0#16, 0x7000#16⟩)).cur.get 0 = 0#16) ∧
      (cenv tc1 .aspiration (envelopeStart ⟨0x0800#16, 0x1C00#16, 0#16, 0x7000#16⟩)).fosc =
        ⟨⟨0x01C00000#32, 0#32⟩, ⟨0#32, 0#32⟩, ⟨0x07000000#32, 0#32⟩⟩ := by decide
theorem test_rform :
    (renderCommand tc1 .rform .formant 6#16 twoOscs).samples.map BitVec.toInt = [9, 19, 24, 21, 17, 14] := by decide +kernel
theorem test_rform_overflow :
    (renderCommand tc1 .rform .formant 2#16 loud).samples.map BitVec.toInt = [-88, -88] ∧
      (renderCommand tc1 .rform .formant 2#16 loud).status = ⟨false, true, 0#4⟩ := by decide
theorem test_rfric :
    (renderCommand tc1 .rfric .fricative 5#16 noiseStart).samples = [-17#8, 24#8, 15#8, 3#8, -10#8] := by decide
theorem test_rsil : (renderCommand tc1 .rsil .silence 3#16 loud).samples = [0#8, 0#8, 0#8] := by decide
theorem test_reset : (resetBlock twoOscs).osc.get 1 = ⟨0#16, 0#16, 0#8⟩ ∧ (resetBlock twoOscs).ctrl = ⟨true, 0#2⟩ := by
  decide

/-! ### Pseudo-instructions (95_test_vectors.md G3 lines 6 to 9 and G4 lines 15 and 16; 30_encoding.md R102) -/

theorem test_setEnd :
    (expand (.setEnd ⟨0x0800#16, 0x1C00#16, 0x4A00#16, 0x7000#16⟩)).map encode =
      [0x11400800#32, 0x11501C00#32, 0x11604A00#32, 0x11707000#32] := by decide
theorem test_wr32 : (expand (.wr32 0x43#8 0x80000000#32)).map encode = [0x14300000#32, 0x24308000#32] := by decide
theorem test_setCtrl : (expand (.setCtrl true 1#2)).map encode = [0x10000003#32] := by decide
theorem test_clrErr : (expand .clrErr).map encode = [0x10100003#32] := by decide

/-! ### Witnesses: for each obligation with hypotheses, a state and operands that meet them -/

/-- The block after reset with words offered. -/
def offering (ws : List Word) : State := { State.reset with cmds := ws }

/-- The block after reset with a sink that is not ready. -/
def stalled : State := { State.reset with smpReady := false }

/-- The same with a `NOP` offered. -/
def offeringStalled : State := { stalled with cmds := [0#32] }

/-- The block after reset with the sequencer in a given state. -/
def inSeq (st : SeqState) : State := { State.reset with seq := { State.reset.seq with st := st } }

/-- The block in the middle of `RSIL 3`, one sample computed and waiting. -/
def emitting : State :=
  { State.reset with seq := { State.reset.seq with op := .rsil, cnt := 3#32, j := 0#32, st := .emit } }

/-- The block in `PLAY buzz, 2`, before its second timeslice. -/
def slicing : State :=
  { State.reset with
    seq := { State.reset.seq with
             op := .play, src := .buzz, n := 2#16, i := 1#16, st := .slice
             s := ⟨0x0800#16, 0x1C00#16, 0x4A00#16, 0#16⟩, e := ⟨0x0900#16, 0x1800#16, 0x4A00#16, 0#16⟩ } }

/-- The block after reset with both sticky flags set. -/
def flagged (ws : List Word) : State := { offering ws with status := ⟨true, true, 4#4⟩, badcmd := 0x10200009#32 }

/-- The block after reset with a hard reset requested in the middle of a sample. -/
def requested : State := { emitting with rst := true }

theorem witness_CommandHasOneWord : decode 0x4002FFFF#32 = .command (.play .frication 65535#16) := by decide

theorem witness_RegisterMapIsTheSpecs : regOf 0x45#8 = some (.foscPhase 2) := by decide

theorem witness_EveryWordsCause_executed :
    (offering [0x11000800#32]).rst = false ∧ (offering [0x11000800#32]).seq.st = .idle ∧
      (offering [0x11000800#32]).cmds = 0x11000800#32 :: [] ∧ (offering [0x11000800#32]).status.ill = false ∧
      wordCause Config.cfg.ampMax (0x11000800#32).toNat = 0 := by decide

theorem witness_EveryWordsCause_refused :
    (offering [0x12200111#32]).rst = false ∧ (offering [0x12200111#32]).seq.st = .idle ∧
      (offering [0x12200111#32]).cmds = 0x12200111#32 :: [] ∧ (offering [0x12200111#32]).status.ill = false ∧
      wordCause Config.cfg.ampMax (0x12200111#32).toNat = 5 := by decide

/-- The causes at the edges of their ranges, TC1's `AMP_MAX` (95_test_vectors.md 3.1). -/
theorem witness_wordCause :
    wordCause 16 0x9FFFFFFF = 1 ∧ wordCause 16 0xE0000000 = 1 ∧ wordCause 16 0x80000000 = 0 ∧
      wordCause 16 0xF0000001 = 2 ∧ wordCause 16 0x10F10000 = 2 ∧ wordCause 16 0x20F00001 = 3 ∧
      wordCause 16 0x1020FFFF = 4 ∧ wordCause 16 0x21000005 = 4 ∧ wordCause 16 0x10000008 = 5 ∧
      wordCause 16 0x10000007 = 0 ∧ wordCause 16 0x12200011 = 5 ∧ wordCause 16 0x12200010 = 0 := by decide

theorem witness_RefusedWordErrorAction :
    (offering [0x35000000#32]).rst = false ∧ (offering [0x35000000#32]).seq.st = .idle ∧
      (offering [0x35000000#32]).cmds = 0x35000000#32 :: [] ∧
      wordCause Config.cfg.ampMax (0x35000000#32).toNat ≠ 0 := by decide

/-- TC1 is a configuration of this hardware. -/
theorem witness_TableIndicesStayInside : tc1.Valid ∧ tc1.buzzShift = 16 - tc1.buzzBits := by
  refine ⟨⟨by decide, by decide, by decide, by decide, by decide, by decide, by decide, by decide, by decide, by decide,
    by decide, ?_, by decide⟩, by decide⟩
  · intro m; simp [tc1, defaultAmMix]

theorem witness_NarrowingOfASum :
    ¬ TooBig 127 ∧ ¬ TooBig (-128) ∧ TooBig 128 ∧ TooBig (-129) ∧ tc1.outNarrow = .wrap ∧
      { tc1 with outNarrow := .saturate }.outNarrow = .saturate := by decide

theorem witness_SumsStayInTheirRanges : tc1.amMix = defaultAmMix 7 := rfl

/-- At the largest shift, and with TC1's own shifts (TC1 is valid: witness_TableIndicesStayInside). -/
theorem witness_DefaultLaws :
    (defaultFricFreq 16 0 0xFFFF#16).toNat = 0xFFFF * 2 ^ 16 ∧ tc1.fricFreqShift ≤ 16 ∧ tc1.amShift ≤ 15 ∧
      ((withDefaultLaws tc1).fricFreq 0 0x1C00#16).toNat = 0x01C00000 := by decide

theorem witness_NarrowingModesAgreeWithoutOverflow :
    twoOscs.status.ovf = false ∧ (samples tc1 .formant 2 twoOscs).status.ovf = false ∧
      (play tc1 .frication 1#16 (segment ⟨0x0800#16, 0x1C00#16, 0#16, 0#16⟩ ⟨0#16, 0#16, 0#16, 0#16⟩)).status.ovf =
        false := by decide

theorem witness_RformRendersTheFormantBank : loud.smpReady = true ∧ (0 : Nat) < (65535#16 : Half).toNat := by decide

theorem witness_RfricRendersTheFricativeBank : noiseStart.smpReady = true ∧ (0 : Nat) < (65535#16 : Half).toNat := by
  decide

theorem witness_RsilEmitsZeros : loud.smpReady = true := rfl

theorem witness_RendererStartsTheSequencer : stalled.smpReady = false ∧ 1#16 ≠ 0#16 := by decide

theorem witness_RendererRunsJoin :
    loud.smpReady = true ∧ (65534#16 : Half).toNat + (1#16 : Half).toNat < 2 ^ 16 ∧
      (∃ t, exec (.rform 65534#16) loud = .next t) ∧ ∃ t, exec (.rfric 65534#16) loud = .next t :=
  ⟨rfl, by decide, ⟨_, exec_eq _ _⟩, ⟨_, exec_eq _ _⟩⟩

/-- The clauses of `CENV buzz`: a sounding formant with phase synchronisation. -/
theorem witness_CenvBuzzSetsTheBank_sounding :
    ((envelopeStart ⟨0x0800#16, 0x1C00#16, 0#16, 0x7000#16⟩).cur.get 0).toNat ≠ 0 ∧
      ((envelopeStart ⟨0x0800#16, 0x1C00#16, 0#16, 0x7000#16⟩).cur.get (Fin.succ 0)).toNat ≠ 0 ∧
      (envelopeStart ⟨0x0800#16, 0x1C00#16, 0#16, 0x7000#16⟩).ctrl.psync = true := by decide

/-- The clauses of `CENV buzz`: a formant of 0, then a fundamental of 0, without phase synchronisation. -/
theorem witness_CenvBuzzSetsTheBank_muted :
    ((envelopeStart ⟨0x0800#16, 0x1C00#16, 0#16, 0x7000#16⟩).cur.get (Fin.succ 1)).toNat = 0 ∧
      ((envelopeStart ⟨0#16, 0x1C00#16, 0#16, 0x7000#16⟩).cur.get 0).toNat = 0 ∧
      { envelopeStart ⟨0#16, 0x1C00#16, 0#16, 0x7000#16⟩ with ctrl := ⟨false, 2#2⟩ }.ctrl.psync = false := by decide

theorem witness_SynchronisedPhasesStaySynchronised :
    ∃ t u, (envelopeStart ⟨0x0800#16, 0x1C00#16, 0x4A00#16, 0x7000#16⟩).smpReady = true ∧
      (envelopeStart ⟨0x0800#16, 0x1C00#16, 0x4A00#16, 0x7000#16⟩).ctrl.psync = true ∧
      exec (.cenv .buzz) (envelopeStart ⟨0x0800#16, 0x1C00#16, 0x4A00#16, 0x7000#16⟩) = .next t ∧
      exec (.rform 3#16) t = .next u := ⟨_, _, rfl, rfl, exec_eq _ _, exec_eq _ _⟩

theorem witness_GlideReachesBothEnds :
    (2 ≤ 4 ∧ 3 < 4 ∧ interp 10 1000 4 3 = 1000) ∧ (2 ≤ 2 ∧ 0 < 2 ∧ interp 65535 1 2 0 = 65535) := by decide

theorem witness_SingleSliceUsesTheMidpoint : 65535 < 2 ^ 16 ∧ interp 65535 65535 1 0 = 65535 := by decide

theorem witness_PlaySilenceEmitsZeros : loud.smpReady = true := rfl

theorem witness_PlayIsItsSlicesCommands : Source.buzz ≠ .silence ∧ noiseStart.smpReady = true := by decide

theorem witness_PlayLeavesTheRestUnchanged :
    Source.frication ≠ .silence ∧ Source.frication ≠ .buzz ∧ Source.buzz ≠ .silence ∧
      (flagged []).smpReady = true ∧ (flagged []).status.ovf = true := by decide

theorem witness_PlayEndsAtTheEndFrequencies :
    Source.aspiration ≠ .silence ∧ 1#16 ≠ 0#16 ∧ 2 ≤ (2#16 : Half).toNat ∧
      ¬ (Source.aspiration = .aspiration ∧ (1 : Fin 4) = 0) ∧
      (segment ⟨0x0800#16, 0#16, 0#16, 0#16⟩ ⟨0#16, 0#16, 0#16, 0#16⟩).smpReady = true := by decide

theorem witness_ConstantSegmentsSplit :
    (segment ⟨0x0800#16, 0x1C00#16, 0#16, 0#16⟩ ⟨0x0800#16, 0x1C00#16, 0#16, 0#16⟩).smpReady = true ∧
      (segment ⟨0x0800#16, 0x1C00#16, 0#16, 0#16⟩ ⟨0x0800#16, 0x1C00#16, 0#16, 0#16⟩).start =
        (segment ⟨0x0800#16, 0x1C00#16, 0#16, 0#16⟩ ⟨0x0800#16, 0x1C00#16, 0#16, 0#16⟩).stop ∧
      (65534#16 : Half).toNat + (1#16 : Half).toNat < 2 ^ 16 ∧
      ∃ t, exec (.play .buzz 65534#16)
        (segment ⟨0x0800#16, 0x1C00#16, 0#16, 0#16⟩ ⟨0x0800#16, 0x1C00#16, 0#16, 0#16⟩) = .next t :=
  ⟨rfl, rfl, by decide, ⟨_, exec_eq _ _⟩⟩

theorem witness_PlayStartsTheSequencer :
    stalled.smpReady = false ∧ 65535#16 ≠ 0#16 ∧ Source.buzz ≠ .silence := by decide

theorem witness_SampleCountDependsOnTheWordAlone : State.reset.smpReady = true := rfl

/-- The last 16-bit register number, the first 32-bit one, and `CTRL` at its largest value. -/
theorem witness_WrlWritesTheLowHalf :
    (wordCause Config.cfg.ampMax (wrlWord 0x39#8 0xFFFF#16) = 0 ∧ regValue State.reset (0x39#8 : BitVec 8).toNat = some 0) ∧
      (wordCause Config.cfg.ampMax (wrlWord 0x40#8 0xFFFF#16) = 0 ∧
        regValue State.reset (0x40#8 : BitVec 8).toNat = some 0) ∧
      wordCause Config.cfg.ampMax (wrlWord 0x00#8 7#16) = 0 ∧ regValue State.reset (0x00#8 : BitVec 8).toNat = some 1 := by
  decide

theorem witness_WrlStatusClears : (3#16 : Half).toNat < 4 ∧ (flagged []).status.ill = true := by decide

theorem witness_WrhWritesTheHighHalf :
    wordCause Config.cfg.ampMax (wrhWord 0x45#8 0xFFFF#16) = 0 ∧
      regValue State.reset (0x45#8 : BitVec 8).toNat = some 0 := by decide

theorem witness_RdAnswersTheRegister : regValue State.reset (0x45#8 : BitVec 8).toNat = some 0 := by decide

theorem witness_FlagsDecideNothing :
    ∃ t t', Instr.rd 0x02#8 ≠ .rd 0x01#8 ∧ Instr.rd 0x02#8 ≠ .rd 0x03#8 ∧ exec (.rd 0x02#8) State.reset = .next t ∧
      exec (.rd 0x02#8) { State.reset with status := ⟨true, true, 5#4⟩, badcmd := 1#32 } = .next t' :=
  ⟨_, _, by decide, by decide, exec_eq _ _, exec_eq _ _⟩

theorem witness_StepRunsTheDecodedCommand :
    (offering [0x40030003#32]).rst = false ∧ (offering [0x40030003#32]).seq.st = .idle ∧
      (offering [0x40030003#32]).cmds = 0x40030003#32 :: [] ∧ decode 0x40030003#32 = .command (.play .buzz 3#16) := by
  decide

theorem witness_WordsAreTakenInOrder :
    (∃ t, step requested = .next t ∧ requested.rst = true) ∧
      (∃ t, step emitting = .next t ∧ emitting.rst = false ∧ emitting.seq.st ≠ .idle) ∧
      ∃ t, step (offering [0#32, 1#32]) = .next t ∧ (offering [0#32, 1#32]).rst = false ∧
        (offering [0#32, 1#32]).seq.st = .idle :=
  ⟨⟨_, rfl, rfl⟩, ⟨_, rfl, rfl, by decide⟩, ⟨_, rfl, rfl, rfl⟩⟩

theorem witness_WaitingChangesNothing :
    ({ emitting with smpReady := false }.rst = false ∧ { emitting with smpReady := false }.seq.st = .emit) ∧
      ({ inSeq .resp with rspReady := false }.rst = false ∧ { inSeq .resp with rspReady := false }.seq.st = .resp) ∧
      State.reset.rst = false ∧ State.reset.seq.st = .idle ∧ State.reset.cmds = [] := by decide

theorem witness_SliceTransition : slicing.rst = false ∧ slicing.seq.st = .slice := by decide

theorem witness_RenderTransition : (inSeq .render).rst = false ∧ (inSeq .render).seq.st = .render := by decide

theorem witness_HandOverTransitions_resp :
    (inSeq .resp).rst = false ∧ (inSeq .resp).seq.st = .resp ∧ (inSeq .resp).rspReady = true := by decide

/-- Another sample; another timeslice; the end of the command. -/
theorem witness_HandOverTransitions_emit :
    (emitting.rst = false ∧ emitting.seq.st = .emit ∧ emitting.smpReady = true ∧
        emitting.seq.j.toNat + 1 < emitting.seq.cnt.toNat) ∧
      ({ slicing.seq with st := .emit, i := 0#16, cnt := 1#32 }.j.toNat + 1 = 1 ∧
        slicing.seq.op = .play ∧ slicing.seq.src ≠ .silence ∧ 0 + 1 < slicing.seq.n.toNat) ∧
      ¬ (slicing.seq.i.toNat + 1 < slicing.seq.n.toNat) := by decide

theorem witness_HardResetAbandonsTheCommand : requested.rst = true ∧ requested.seq.st = .emit := by decide

theorem witness_SequencerAgreesWithBigStep :
    ∃ t u, State.reset.rst = false ∧ State.reset.seq.st = .idle ∧ State.reset.smpReady = true ∧
      State.reset.rspReady = true ∧ exec (.rform 3#16) { State.reset with smpReady := false } = .next t ∧
      exec (.rform 3#16) State.reset = .next u := ⟨_, _, rfl, rfl, rfl, rfl, exec_eq _ _, exec_eq _ _⟩

/-- One silent sample that the sink keeps waiting for one step. -/
theorem witness_SinkDelaysChangeNoValue :
    ∃ t u v, State.reset.rst = false ∧ State.reset.seq.st = .idle ∧ State.reset.smpReady = true ∧
      State.reset.rspReady = true ∧ State.reset.cmds = [] ∧
      exec (.rsil 1#16) { State.reset with smpReady := false } = .next t ∧ exec (.rsil 1#16) State.reset = .next u ∧
      runDelayed [true, false, true] t = .next v ∧ v.seq.st = .idle :=
  ⟨_, _, _, rfl, rfl, rfl, rfl, rfl, rfl, rfl, rfl, rfl⟩

/-- The invariant in the middle of a run of samples. -/
theorem witness_EveryStepKeepsTheInvariant_emit : Invariant Config.cfg emitting ∧ ∃ t, step emitting = .next t := by
  refine ⟨⟨fun j => ?_, ⟨rfl, rfl⟩, ?_⟩, _, rfl⟩
  · have h : (ampOf (emitting.osc.get j).wave).toNat = 0 := by revert j; decide
    rw [h]; exact Nat.zero_le _
  · exact ⟨by decide, show emitting.seq.cnt.toNat ≤ 65535 by decide, fun h => absurd h.1 (by decide)⟩

/-- The invariant between two timeslices. -/
theorem witness_EveryStepKeepsTheInvariant_slice : Invariant Config.cfg slicing ∧ ∃ t, step slicing = .next t := by
  refine ⟨⟨fun j => ?_, ⟨rfl, rfl⟩, ?_⟩, _, rfl⟩
  · have h : (ampOf (slicing.osc.get j).wave).toNat = 0 := by revert j; decide
    rw [h]; exact Nat.zero_le _
  · exact ⟨rfl, by decide, by decide, by decide⟩

theorem witness_ChannelsOnlyGrow : ∃ t, step emitting = .next t := ⟨_, rfl⟩

theorem witness_StickyFlagsAreClearedByTheHostAlone :
    ∃ t, step (flagged [0x10100003#32]) = .next t ∧ (flagged [0x10100003#32]).rst = false ∧
      (flagged [0x10100003#32]).status.ovf = true ∧ t.status.ovf = false ∧
      (flagged [0x10100003#32]).status.ill = true ∧ t.status.ill = false := ⟨_, rfl, rfl, rfl, rfl, rfl, rfl⟩

theorem witness_OperandRegistersAreWrittenByTheHostAlone :
    ∃ t, step (offering [0x11000800#32]) = .next t ∧ (offering [0x11000800#32]).rst = false ∧
      t.start ≠ (offering [0x11000800#32]).start := ⟨_, rfl, rfl, by decide⟩

theorem witness_PhasesOnlyAdvance_render :
    ∃ t, step (inSeq .render) = .next t ∧ (inSeq .render).rst = false ∧ (inSeq .render).seq.st ≠ .idle :=
  ⟨_, rfl, rfl, by decide⟩

/-- The premises of an acceptance, with a `NOP` offered and the sink not ready. -/
theorem witness_PhasesOnlyAdvance_idle :
    (∃ t, step offeringStalled = .next t) ∧ offeringStalled.rst = false ∧ offeringStalled.seq.st = .idle ∧
      offeringStalled.smpReady = false ∧ offeringStalled.cmds.head? ≠ some 0xF0000000#32 ∧
      ∀ (reg : BitVec 8) (imm : Half), 0x20 ≤ reg.toNat →
        offeringStalled.cmds.head? ≠ some (BitVec.ofNat 32 (wrlWord reg imm)) ∧
        offeringStalled.cmds.head? ≠ some (BitVec.ofNat 32 (wrhWord reg imm)) := by
  refine ⟨⟨_, rfl⟩, rfl, rfl, rfl, by decide, fun reg imm _ => ⟨fun h => ?_, fun h => ?_⟩⟩ <;>
    have h1 := reg.isLt <;> have h2 := imm.isLt <;>
    simp only [offeringStalled, stalled, List.head?_cons, Option.some.injEq, ← BitVec.toNat_inj, BitVec.toNat_ofNat] at h <;>
    simp only [wrlWord, wrhWord] at h <;> omega

end Sys2Proof.Tests
end

