-- ==== Sys2Proof/Certificates/Slice0/SinkDelays.lean ====
section
/-! PROOF. The sink's delays change no value. The idea: from the sequencer's registers one reads off what is left of the
command in progress (`remaining`). Carried out at once on the visible state it gives `completed`, which no transition
changes, whether the sink accepts or delays; in IDLE nothing is left, and right after the acceptance everything is. -/

namespace Sys2Proof.Machine

open Sys2Proof Sys2Proof.Spec

/-! ### The inputs: no command and no transition changes one -/

/-- The two states have the same offered words, reset request and levels. -/
structure SameInputs (s t : State) : Prop where
  cmds : t.cmds = s.cmds
  rst : t.rst = s.rst
  smpReady : t.smpReady = s.smpReady
  rspReady : t.rspReady = s.rspReady

theorem SameInputs.refl (s : State) : SameInputs s s := ⟨rfl, rfl, rfl, rfl⟩

theorem SameInputs.trans {s t u : State} (h : SameInputs s t) (h' : SameInputs t u) : SameInputs s u :=
  ⟨h'.cmds.trans h.cmds, h'.rst.trans h.rst, h'.smpReady.trans h.smpReady, h'.rspReady.trans h.rspReady⟩

theorem respond_sameInputs (v : Word) (s : State) : SameInputs s (respond v s) := by
  rw [respond_frame]; exact ⟨rfl, rfl, rfl, rfl⟩

theorem recordIll_sameInputs (k : Cause) (w : Word) (s : State) : SameInputs s (recordIll k w s) := by
  rw [recordIll_frame]; exact ⟨rfl, rfl, rfl, rfl⟩

theorem cenv_sameInputs (c : Cfg) (src : Source) (s : State) : SameInputs s (cenv c src s) := by
  rw [cenv_frame]; exact ⟨rfl, rfl, rfl, rfl⟩

theorem beginSlice_sameInputs (c : Cfg) (g : Segment) (i : Nat) (s : State) : SameInputs s (beginSlice c g i s) :=
  have h : SameInputs s (s.withCur (sliceFreqs g i)) := ⟨rfl, rfl, rfl, rfl⟩
  h.trans (cenv_sameInputs c g.src _)

theorem renderState_sameInputs (c : Cfg) (k : Kind) (s : State) : SameInputs s (renderState c k s) := by
  rw [renderState_eq]; exact ⟨rfl, rfl, rfl, rfl⟩

theorem samples_sameInputs (c : Cfg) (k : Kind) (n : Nat) (s : State) : SameInputs s (samples c k n s) := by
  rw [samples_frame]; exact ⟨rfl, rfl, rfl, rfl⟩

theorem playSlice_sameInputs (c : Cfg) (g : Segment) (i : Nat) (s : State) : SameInputs s (playSlice c g i s) :=
  (beginSlice_sameInputs c g i s).trans (samples_sameInputs ..)

theorem play_sameInputs (c : Cfg) (src : Source) (n : Half) (s : State) : SameInputs s (play c src n s) := by
  by_cases hsrc : src = .silence
  · subst hsrc; rw [play_silence]; exact samples_sameInputs ..
  · rw [play_sound hsrc]
    exact playSlices_induct (P := SameInputs s) (fun i t h => h.trans (playSlice_sameInputs c _ i t)) _ _ (.refl s)

theorem startPlay_sameInputs (c : Cfg) (src : Source) (n : Half) (s : State) : SameInputs s (startPlay c src n s) := by
  unfold startPlay; split <;> exact ⟨rfl, rfl, rfl, rfl⟩

theorem tickResp_sameInputs (s : State) : SameInputs s (tickResp s) := by
  unfold tickResp; split <;> exact ⟨rfl, rfl, rfl, rfl⟩

theorem tickSlice_sameInputs (c : Cfg) (s : State) : SameInputs s (tickSlice c s) :=
  (beginSlice_sameInputs c (seqSegment s.seq) s.seq.i.toNat s).trans ⟨rfl, rfl, rfl, rfl⟩

theorem tickRender_sameInputs (c : Cfg) (s : State) : SameInputs s (tickRender c s) :=
  (renderState_sameInputs c (seqKind s.seq) s).trans ⟨rfl, rfl, rfl, rfl⟩

theorem tickEmit_sameInputs (s : State) : SameInputs s (tickEmit s) := by
  unfold tickEmit; split <;> exact ⟨rfl, rfl, rfl, rfl⟩

/-! ### The commands that render nothing do not look at the sink -/

/-- An operation that neither reads nor writes the sink's level and that, with a ready host, starts no run. -/
structure SinkBlind (f : State → State) : Prop where
  inputs : ∀ s, SameInputs s (f s)
  sink : ∀ s b, f (s.withSmpReady b) = (f s).withSmpReady b
  idle : ∀ s, s.rspReady = true → s.seq.st = .idle → (f s).seq.st = .idle

theorem SinkBlind.comp {f g : State → State} (hg : SinkBlind g) (hf : SinkBlind f) : SinkBlind fun s => g (f s) where
  inputs s := (hf.inputs s).trans (hg.inputs (f s))
  sink s b := by rw [hf.sink, hg.sink]
  idle s hr hst := hg.idle (f s) ((hf.inputs s).rspReady.trans hr) (hf.idle s hr hst)

theorem sinkBlind_id : SinkBlind fun s => s := ⟨.refl, fun _ _ => rfl, fun _ _ h => h⟩

/-- A response may depend on the state, but not on the sink's level. -/
theorem sinkBlind_respond {v : State → Word} (hv : ∀ s b, v (s.withSmpReady b) = v s) :
    SinkBlind fun s => respond (v s) s where
  inputs s := respond_sameInputs (v s) s
  sink s b := by
    rw [hv]
    cases h : s.rspReady
    · rw [respond_busy h, respond_busy (s := s.withSmpReady b) h]; rfl
    · rw [respond_ready h, respond_ready (s := s.withSmpReady b) h]; rfl
  idle s hr hst := by rw [respond_ready hr]; exact hst

theorem sinkBlind_recordIll (k : Cause) (w : Word) : SinkBlind (recordIll k w) where
  inputs := recordIll_sameInputs k w
  sink s b := by
    cases h : s.status.ill
    · rw [recordIll_first h, recordIll_first (s := s.withSmpReady b) h]; rfl
    · rw [recordIll_again h, recordIll_again (s := s.withSmpReady b) h]
  idle s _ hst := by rw [recordIll_frame]; exact hst

theorem sinkBlind_raiseIll (k : Cause) (w : Word) : SinkBlind (raiseIll k w) := by
  by_cases h : opcodeOf w = 0x3#4
  · rw [funext (raiseIll_rd h k)]
    exact (sinkBlind_respond (v := fun _ => 0#32) fun _ _ => rfl).comp (sinkBlind_recordIll k w)
  · rw [funext (raiseIll_other h k)]
    exact sinkBlind_recordIll k w

/-- `WRL STATUS` writes `STATUS` and `BADCMD` and nothing else. -/
theorem clearStatus_eq (imm : Half) (s : State) :
    clearStatus imm s =
      (s.withStatus
        ⟨s.status.ill && !imm.getLsbD 0, s.status.ovf && !imm.getLsbD 1,
          if imm.getLsbD 0 then 0#4 else s.status.cause⟩).withBadcmd
        (if imm.getLsbD 0 then 0#32 else s.badcmd) := by
  unfold clearStatus
  cases imm.getLsbD 0 <;> cases imm.getLsbD 1 <;> simp [clearIll_eq, clearOvf_eq] <;> rfl

theorem sinkBlind_clearStatus (imm : Half) : SinkBlind (clearStatus imm) := by
  rw [funext (clearStatus_eq imm)]
  exact ⟨fun _ => ⟨rfl, rfl, rfl, rfl⟩, fun _ _ => rfl, fun _ _ h => h⟩

theorem sinkBlind_writeLow (r : Reg) (imm : Half) : SinkBlind (writeLow r imm) := by
  cases r
  case status => exact sinkBlind_clearStatus imm
  all_goals exact ⟨fun _ => ⟨rfl, rfl, rfl, rfl⟩, fun _ _ => rfl, fun _ _ h => h⟩

theorem sinkBlind_writeHigh (r : Reg) (imm : Half) : SinkBlind (writeHigh r imm) := by
  cases r <;> exact ⟨fun _ => ⟨rfl, rfl, rfl, rfl⟩, fun _ _ => rfl, fun _ _ h => h⟩

theorem sinkBlind_wrl (c : Cfg) (reg : BitVec 8) (imm : Half) : SinkBlind (wrl c reg imm) := by
  unfold wrl
  cases regOf reg with
  | none => exact sinkBlind_raiseIll _ _
  | some r =>
    cases h : lowWriteCause c r imm with
    | none => simp only [h]; exact sinkBlind_writeLow r imm
    | some k => simp only [h]; exact sinkBlind_raiseIll _ _

theorem sinkBlind_wrh (reg : BitVec 8) (imm : Half) : SinkBlind (wrh reg imm) := by
  unfold wrh
  cases regOf reg with
  | none => exact sinkBlind_raiseIll _ _
  | some r =>
    cases h : highWriteCause r with
    | none => simp only [h]; exact sinkBlind_writeHigh r imm
    | some k => simp only [h]; exact sinkBlind_raiseIll _ _

theorem sinkBlind_rd (c : Cfg) (reg : BitVec 8) : SinkBlind (rd c reg) := by
  unfold rd
  cases regOf reg with
  | none => exact sinkBlind_raiseIll _ _
  | some r => exact sinkBlind_respond fun s b => by cases r <;> rfl

theorem sinkBlind_cenv (c : Cfg) (src : Source) : SinkBlind (cenv c src) where
  inputs := cenv_sameInputs c src
  sink s b := by cases src <;> rfl
  idle s _ hst := by rw [cenv_frame]; exact hst

theorem sinkBlind_resetBlock : SinkBlind resetBlock :=
  ⟨fun _ => ⟨rfl, rfl, rfl, rfl⟩, fun _ _ => rfl, fun _ _ _ => rfl⟩

/-! ### The visible state -/

/-- The state without the sequencer's hidden registers and without the sink's answer. -/
def visible (s : State) : State := (s.withSeq State.reset.seq).withSmpReady true

theorem visible_withSeq (s : State) (q : Seq) : visible (s.withSeq q) = visible s := rfl

theorem visible_withSmpReady (s : State) (b : Bool) : visible (s.withSmpReady b) = visible s := rfl

theorem visible_emit (x : Byte) (s : State) : visible (emit x s) = emit x (visible s) := rfl

theorem visible_beginSlice (c : Cfg) (g : Segment) (i : Nat) (s : State) :
    visible (beginSlice c g i s) = beginSlice c g i (visible s) := by
  unfold beginSlice; cases g.src <;> rfl

theorem renderOut_visible (c : Cfg) (k : Kind) (s : State) : renderOut c k (visible s) = renderOut c k s := by
  cases k <;> rfl

theorem visible_renderState (c : Cfg) (k : Kind) (s : State) :
    visible (renderState c k s) = renderState c k (visible s) := by
  rw [renderState_eq, renderState_eq]; cases k <;> rfl

theorem visible_sample (c : Cfg) (k : Kind) (s : State) : visible (sample c k s) = sample c k (visible s) := by
  rw [sample, sample, visible_emit, visible_renderState, renderOut_visible]

theorem visible_samples (c : Cfg) (k : Kind) (n : Nat) (s : State) :
    visible (samples c k n s) = samples c k n (visible s) := by
  induction n generalizing s with
  | zero => rfl
  | succ n ih => rw [samples_succ, samples_succ, ih, visible_sample]

theorem visible_playSlices (c : Cfg) (g : Segment) (i n : Nat) (s : State) :
    visible (playSlices c g i n s) = playSlices c g i n (visible s) := by
  induction n generalizing i s with
  | zero => rfl
  | succ n ih => rw [playSlices_succ, playSlices_succ, ih, playSlice, playSlice, visible_samples, visible_beginSlice]

theorem visible_play (c : Cfg) (src : Source) (n : Half) (s : State) :
    visible (play c src n s) = play c src n (visible s) := by
  by_cases hsrc : src = .silence
  · subst hsrc; rw [play_silence, play_silence, visible_samples]
  · rw [play_sound hsrc, play_sound hsrc, visible_playSlices]; rfl

/-! ### What is left of the command in progress -/

/-- The timeslices of a sounding `PLAY` after the current one, on the state `x`. -/
def laterSlices (c : Cfg) (q : Seq) (x : State) : State :=
  if q.op = .play ∧ q.src ≠ .silence then
    playSlices c (seqSegment q) (q.i.toNat + 1) (q.n.toNat - (q.i.toNat + 1)) x
  else x

/-- What follows the sample in hand, number `SEQ.J`: the rest of its run, then the later timeslices. -/
def afterSample (c : Cfg) (q : Seq) (x : State) : State :=
  laterSlices c q (samples c (seqKind q) (q.cnt.toNat - (q.j.toNat + 1)) x)

/-- What a sequencer with the registers `q` still does to the visible state `x`, with a sink and a host that accept. -/
def remaining (c : Cfg) (q : Seq) (x : State) : State :=
  match q.st with
  | .idle => x
  | .resp => deliver q.rsp x
  | .slice =>
    laterSlices c q (samples c (seqKind q) c.sliceLen (beginSlice c (seqSegment q) q.i.toNat x))
  | .render => afterSample c q (sample c (seqKind q) x)
  | .emit => afterSample c q (emit q.out x)

/-- The visible state once the command in progress is complete. -/
def completed (c : Cfg) (s : State) : State := remaining c s.seq (visible s)

theorem completed_withSmpReady (c : Cfg) (s : State) (b : Bool) : completed c (s.withSmpReady b) = completed c s := rfl

theorem remaining_idle {q : Seq} (h : q.st = .idle) (c : Cfg) (x : State) : remaining c q x = x := by
  simp only [remaining, h]

theorem remaining_render {q : Seq} (h : q.st = .render) (c : Cfg) (x : State) :
    remaining c q x = afterSample c q (sample c (seqKind q) x) := by
  simp only [remaining, h]

theorem remaining_emit {q : Seq} (h : q.st = .emit) (c : Cfg) (x : State) :
    remaining c q x = afterSample c q (emit q.out x) := by
  simp only [remaining, h]

theorem completed_idle {s : State} (h : s.seq.st = .idle) (c : Cfg) : completed c s = visible s :=
  remaining_idle h c _

theorem laterSlices_of_not_sound {q : Seq} (h : ¬(q.op = .play ∧ q.src ≠ .silence)) (c : Cfg) (x : State) :
    laterSlices c q x = x := if_neg h

theorem laterSlices_of_last {q : Seq} (h : q.n.toNat ≤ q.i.toNat + 1) (c : Cfg) (x : State) :
    laterSlices c q x = x := by
  rw [laterSlices, Nat.sub_eq_zero_of_le h, playSlices_zero, ite_self]

/-- Before its first sample, a run is its `SEQ.CNT` samples. -/
theorem remaining_render_zero {q : Seq} (hst : q.st = .render) (hj : q.j = 0#32) (hc : 0 < q.cnt.toNat) (c : Cfg)
    (x : State) : remaining c q x = laterSlices c q (samples c (seqKind q) q.cnt.toNat x) := by
  have hcnt : q.cnt.toNat = (q.cnt.toNat - (q.j.toNat + 1)) + 1 := by simp [hj]; omega
  rw [remaining_render hst, afterSample, hcnt, samples_succ, ← hcnt]

/-- Before timeslice `SEQ.I` of a sounding `PLAY`, that timeslice and the later ones are left. -/
theorem remaining_slice {q : Seq} (hst : q.st = .slice) (hop : q.op = .play) (hsrc : q.src ≠ .silence)
    (hi : q.i.toNat < q.n.toNat) (c : Cfg) (x : State) :
    remaining c q x = playSlices c (seqSegment q) q.i.toNat (q.n.toNat - q.i.toNat) x := by
  have hn : q.n.toNat - q.i.toNat = (q.n.toNat - (q.i.toNat + 1)) + 1 := by omega
  have hk : seqKind q = kindOf (seqSegment q).src := by simp only [seqKind, hop, seqSegment]
  simp only [remaining, hst]
  rw [laterSlices, if_pos ⟨hop, hsrc⟩, hk, hn, playSlices_succ, playSlice]

/-! ### No transition changes what the command comes to -/

theorem sliceLen_toNat : (BitVec.ofNat 32 Config.cfg.sliceLen).toNat = Config.cfg.sliceLen := by
  have := Config.cfg_valid.sliceLen_le
  rw [BitVec.toNat_ofNat, Nat.mod_eq_of_lt (by omega)]

theorem completed_tickResp {s : State} (hst : s.seq.st = .resp) (c : Cfg) :
    completed c (tickResp s) = completed c s := by
  unfold tickResp
  split
  · simp only [completed, remaining, hst]; rfl
  · rfl

theorem completed_tickSlice {s : State} (hst : s.seq.st = .slice) :
    completed Config.cfg (tickSlice Config.cfg s) = completed Config.cfg s := by
  have hpos : 0 < (BitVec.ofNat 32 Config.cfg.sliceLen).toNat := by
    rw [sliceLen_toNat]; exact Config.cfg_valid.sliceLen_pos
  rw [completed, tickSlice, visible_withSeq, visible_beginSlice, remaining_render_zero rfl rfl (by exact hpos)]
  simp only [completed, remaining, hst, State.withSeq_seq, sliceLen_toNat]
  rfl

theorem completed_tickRender {s : State} (hst : s.seq.st = .render) (c : Cfg) :
    completed c (tickRender c s) = completed c s := by
  rw [completed, completed, remaining_render hst, remaining_emit rfl, tickRender, visible_withSeq,
    visible_renderState, sample, renderOut_visible]
  rfl

/-- The arms of an acceptance are the cases of what follows a sample: another sample, another timeslice, nothing. -/
theorem remaining_afterAccept (c : Cfg) (q : Seq) (x : State) : remaining c (afterAccept q) x = afterSample c q x := by
  unfold afterAccept
  split
  next hj =>
    have hj1 : (q.j + 1#32).toNat = q.j.toNat + 1 := by bv_omega
    have hrest : q.cnt.toNat - (q.j.toNat + 1) = (q.cnt.toNat - (q.j.toNat + 1 + 1)) + 1 := by omega
    rw [remaining_render rfl, afterSample, afterSample, hrest, samples_succ, hj1]
    rfl
  next hj =>
    rw [afterSample, Nat.sub_eq_zero_of_le (Nat.le_of_not_lt hj), samples_zero]
    split
    next hi =>
      obtain ⟨hop, hsrc, hi⟩ := hi
      have hi1 : (q.i + 1#16).toNat = q.i.toNat + 1 := by bv_omega
      rw [remaining_slice (q := { q with i := q.i + 1#16, st := .slice }) rfl hop hsrc (hi1 ▸ hi), laterSlices,
        if_pos ⟨hop, hsrc⟩, hi1]
      rfl
    next hi =>
      rw [remaining_idle rfl]
      by_cases hs : q.op = .play ∧ q.src ≠ .silence
      · rw [laterSlices_of_last (Nat.le_of_not_lt fun h => hi ⟨hs.1, hs.2, h⟩)]
      · rw [laterSlices_of_not_sound hs]

theorem completed_tickEmit {s : State} (hst : s.seq.st = .emit) (c : Cfg) :
    completed c (tickEmit s) = completed c s := by
  unfold tickEmit
  split
  · rw [completed, completed, remaining_emit hst, visible_emit, visible_withSeq]
    exact remaining_afterAccept c s.seq _
  · rfl

/-- Without a reset request and an offered word a step changes neither the inputs nor what the command comes to. -/
theorem step_keeps_completed {s t : State} (hrst : s.rst = false) (hcmds : s.cmds = []) (h : step s = .next t) :
    SameInputs s t ∧ completed Config.cfg t = completed Config.cfg s := by
  obtain ⟨hr, -⟩ | ⟨-, -, -, rfl⟩ | ⟨-, -, w, ws, hw, -⟩ | ⟨-, hst, rfl⟩ | ⟨-, hst, rfl⟩ | ⟨-, hst, rfl⟩ |
    ⟨-, hst, rfl⟩ := step_cases h
  · rw [hrst] at hr; contradiction
  · exact ⟨.refl _, rfl⟩
  · rw [hcmds] at hw; contradiction
  · exact ⟨tickResp_sameInputs s, completed_tickResp hst _⟩
  · exact ⟨tickSlice_sameInputs _ s, completed_tickSlice hst⟩
  · exact ⟨tickRender_sameInputs _ s, completed_tickRender hst _⟩
  · exact ⟨tickEmit_sameInputs s, completed_tickEmit hst _⟩

/-- A property that every step keeps, whatever the sink answers, a delayed run keeps. -/
theorem runDelayed_induct {P : State → Prop} (h : ∀ s t b, P s → step (s.withSmpReady b) = .next t → P t)
    {bs : List Bool} {s t : State} (hs : P s) (hrun : runDelayed bs s = .next t) : P t := by
  induction bs generalizing s with
  | nil => injection hrun with hrun; exact hrun ▸ hs
  | cons b bs ih =>
    rw [runDelayed] at hrun
    split at hrun
    next u hu => exact ih (h s u b hs hu) hrun
    all_goals contradiction

theorem runDelayed_keeps_completed {s t : State} {bs : List Bool} (hrst : s.rst = false) (hcmds : s.cmds = [])
    (hrun : runDelayed bs s = .next t) : completed Config.cfg t = completed Config.cfg s := by
  obtain ⟨-, -, hkept⟩ := runDelayed_induct
    (P := fun u => u.rst = false ∧ u.cmds = [] ∧ completed Config.cfg u = completed Config.cfg s)
    (fun u v b ⟨hr, hc, hu⟩ hstep => by
      obtain ⟨hin, hv⟩ := step_keeps_completed (s := u.withSmpReady b) hr hc hstep
      exact ⟨hin.rst.trans hr, hin.cmds.trans hc, hv.trans hu⟩)
    ⟨hrst, hcmds, rfl⟩ hrun
  exact hkept

/-! ### Right after the acceptance the whole command is left -/

theorem completed_startRender {op : SeqOp} {n : Half} {s : State} (hop : op ≠ .play) (hn : n ≠ 0#16) (c : Cfg) :
    completed c (startRender op n s) = samples c (seqKind (startRender op n s).seq) n.toNat (visible s) := by
  have hpos : 0 < n.toNat := by bv_omega
  have hcnt : (n.setWidth 32).toNat = n.toNat := by
    rw [BitVec.toNat_setWidth, Nat.mod_eq_of_lt (by omega)]
  rw [completed, remaining_render_zero rfl rfl (by rw [startRender]; exact hcnt ▸ hpos),
    laterSlices_of_not_sound fun h => hop h.1]
  simp only [startRender, State.withSeq_seq, visible_withSeq, hcnt]

theorem completed_startPlay {n : Half} (hn : n ≠ 0#16) (src : Source) (s : State) :
    completed Config.cfg (startPlay Config.cfg src n s) = play Config.cfg src n (visible s) := by
  have hpos : 0 < n.toNat := by bv_omega
  by_cases hsrc : src = .silence
  · subst hsrc
    have hlen := Config.cfg_valid.sliceLen_pos
    have hle : n.toNat * Config.cfg.sliceLen ≤ 65535 * 65535 :=
      Nat.mul_le_mul (by omega) Config.cfg_valid.sliceLen_le
    have hcnt : (BitVec.ofNat 32 (n.toNat * Config.cfg.sliceLen)).toNat = n.toNat * Config.cfg.sliceLen := by
      rw [BitVec.toNat_ofNat, Nat.mod_eq_of_lt (by omega)]
    rw [play_silence, startPlay, if_pos rfl, completed,
      remaining_render_zero rfl rfl (by exact hcnt.symm ▸ Nat.mul_pos hpos hlen),
      laterSlices_of_not_sound fun h => h.2 rfl]
    simp only [State.withSeq_seq, visible_withSeq, hcnt]
    rfl
  · rw [play_sound hsrc, startPlay, if_neg hsrc, completed,
      remaining_slice rfl rfl (by exact hsrc) (by exact hpos)]
    rfl

/-- What the acceptance of a command says: the inputs stay, and the command started with a sink that is not ready comes to
what it does at once with a sink that is. -/
structure Accepted (f : State → State) (s : State) : Prop where
  inputs : ∀ b, SameInputs (s.withSmpReady b) (f (s.withSmpReady b))
  completes : completed Config.cfg (f (s.withSmpReady false)) = visible (f (s.withSmpReady true))

theorem SinkBlind.accepted {f : State → State} (h : SinkBlind f) {s : State} (hrsp : s.rspReady = true)
    (hst : s.seq.st = .idle) : Accepted f s where
  inputs b := h.inputs _
  completes := by
    rw [h.sink, h.sink, completed_withSmpReady, completed_idle (h.idle s hrsp hst)]; rfl

theorem renderCommand_accepted {op : SeqOp} {k : Kind} {s : State} (hst : s.seq.st = .idle) (hop : op ≠ .play)
    (n : Half) (hk : seqKind (startRender op n (s.withSmpReady false)).seq = k) :
    Accepted (renderCommand Config.cfg op k n) s := by
  by_cases hn : n = 0#16
  · subst hn
    rw [funext (renderCommand_zero Config.cfg op k)]
    exact ⟨fun b => .refl _, completed_idle (s := s.withSmpReady false) hst _⟩
  · have hbusy := renderCommand_busy (s := s.withSmpReady false) rfl Config.cfg op k hn
    have hready := renderCommand_ready (s := s.withSmpReady true) rfl Config.cfg op k n
    constructor
    case inputs =>
      rintro (_ | _)
      · rw [hbusy]; exact ⟨rfl, rfl, rfl, rfl⟩
      · rw [hready]; exact samples_sameInputs ..
    case completes =>
      rw [hbusy, hready, completed_startRender hop hn, hk, visible_samples]; rfl

theorem playCommand_accepted {s : State} (hst : s.seq.st = .idle) (src : Source) (n : Half) :
    Accepted (playCommand Config.cfg src n) s := by
  by_cases hn : n = 0#16
  · subst hn
    rw [funext (playCommand_zero Config.cfg src)]
    exact ⟨fun b => .refl _, completed_idle (s := s.withSmpReady false) hst _⟩
  · have hbusy := playCommand_busy (s := s.withSmpReady false) rfl Config.cfg src hn
    have hready := playCommand_ready (s := s.withSmpReady true) rfl Config.cfg src n
    constructor
    case inputs =>
      rintro (_ | _)
      · rw [hbusy]; exact startPlay_sameInputs ..
      · rw [hready]; exact play_sameInputs ..
    case completes =>
      rw [hbusy, hready, completed_startPlay hn, visible_play]; rfl

theorem result_accepted {s : State} (hrsp : s.rspReady = true) (hst : s.seq.st = .idle) (i : Instr) :
    Accepted (result i) s := by
  cases i with
  | nop => exact sinkBlind_id.accepted hrsp hst
  | wrl reg imm => exact (sinkBlind_wrl Config.cfg reg imm).accepted hrsp hst
  | wrh reg imm => exact (sinkBlind_wrh reg imm).accepted hrsp hst
  | rd reg => exact (sinkBlind_rd Config.cfg reg).accepted hrsp hst
  | play src n => exact playCommand_accepted hst src n
  | cenv src => exact (sinkBlind_cenv Config.cfg src).accepted hrsp hst
  | rform n => exact renderCommand_accepted hst (by decide) n rfl
  | rfric n => exact renderCommand_accepted hst (by decide) n rfl
  | rsil n => exact renderCommand_accepted hst (by decide) n rfl
  | reset => exact sinkBlind_resetBlock.accepted hrsp hst

/-- Settles O54: the state the command comes to is the same after the acceptance, after every delayed step and in IDLE. -/
theorem sinkDelaysChangeNoValue : Obligations.SinkDelaysChangeNoValue := by
  intro i s t u v bs hrst hst hsmp hrsp hcmds ht hu hrun hv
  have hs : s.withSmpReady true = s := by rw [← hsmp]; rfl
  obtain ⟨hinputs, hcompletes⟩ := result_accepted hrsp hst i
  have htr : result i (s.withSmpReady false) = t := by rw [exec_eq] at ht; injection ht
  have hur : result i (s.withSmpReady true) = u := by rw [hs]; rw [exec_eq] at hu; injection hu
  have hin := htr ▸ hinputs false
  have hready : u.smpReady = true := (hur ▸ hinputs true).smpReady
  have hvis : visible v = visible u :=
    calc visible v = completed Config.cfg v := (completed_idle hv _).symm
      _ = completed Config.cfg t := runDelayed_keeps_completed (hin.rst.trans hrst) (hin.cmds.trans hcmds) hrun
      _ = visible u := by rw [← htr, hcompletes, hur]
  calc { v with seq := s.seq, smpReady := true } = (visible v).withSeq s.seq := rfl
    _ = (visible u).withSeq s.seq := by rw [hvis]
    _ = (u.withSmpReady true).withSeq s.seq := rfl
    _ = { u with seq := s.seq } := by rw [← hready]; rfl

end Sys2Proof.Machine
end

/-! PROOF. The register map read backwards, and the two ways a host access can go: it is refused, or it is carried out.
Which one depends on the command alone, not on the state, so each `_cases` lemma is an equation between operations. -/

namespace Sys2Proof.Machine

open Sys2Proof

/-- The numbers of an oscillator's registers (20_memory.md R61). -/
theorem regNumber_of_oscReg {j : Fin 7} {m : Nat} {r : Reg} (h : oscReg j m = some r) :
    (regNumber r).toNat = 0x20 + 4 * j.val + m := by
  unfold oscReg at h
  split at h
  case h_4 => contradiction
  all_goals
    obtain rfl := Option.some.inj h
    simp only [regNumber, BitVec.toNat_ofNat]
    omega

/-- A register's number is the one it was found by (20_memory.md R61). -/
theorem regNumber_of_regOf {n : BitVec 8} {r : Reg} (h : regOf n = some r) : regNumber r = n := by
  apply BitVec.eq_of_toNat_eq
  simp only [regOf, ite_eq_iff, dite_eq_iff, Option.some.injEq] at h
  obtain ⟨hn, rfl⟩ | ⟨-, ⟨hn, rfl⟩ | ⟨-, ⟨hn, rfl⟩ | ⟨-, ⟨hn, rfl⟩ | ⟨-, ⟨hn, rfl⟩ | ⟨-, ⟨hn, rfl⟩ | ⟨-, ⟨hn, rfl⟩ |
    ⟨-, ⟨hn, hosc⟩ | ⟨-, ⟨hn, ⟨hlow, rfl⟩ | ⟨hhigh, rfl⟩⟩ | ⟨-, hnone⟩⟩⟩⟩⟩⟩⟩⟩⟩ := h
  iterate 7
    · simp only [regNumber, BitVec.toNat_ofNat]; omega
  · rw [regNumber_of_oscReg hosc]; dsimp only; omega
  iterate 2
    · simp only [regNumber, BitVec.toNat_ofNat]; omega
  · contradiction

theorem wrl_cases (c : Cfg) (reg : BitVec 8) (imm : Half) :
    (∃ k, wrl c reg imm = raiseIll k (encode (.wrl reg imm))) ∨
    ∃ r, regOf reg = some r ∧ lowWriteCause c r imm = none ∧ wrl c reg imm = writeLow r imm := by
  cases hr : regOf reg with
  | none => exact .inl ⟨.badRegister, funext fun s => by simp only [wrl, hr]⟩
  | some r =>
    cases hk : lowWriteCause c r imm with
    | none => exact .inr ⟨r, rfl, hk, funext fun s => by simp only [wrl, hr, hk]⟩
    | some k => exact .inl ⟨k, funext fun s => by simp only [wrl, hr, hk]⟩

theorem wrh_cases (reg : BitVec 8) (imm : Half) :
    (∃ k, wrh reg imm = raiseIll k (encode (.wrh reg imm))) ∨ ∃ r, wrh reg imm = writeHigh r imm := by
  cases hr : regOf reg with
  | none => exact .inl ⟨.badRegister, funext fun s => by simp only [wrh, hr]⟩
  | some r =>
    cases hk : highWriteCause r with
    | none => exact .inr ⟨r, funext fun s => by simp only [wrh, hr, hk]⟩
    | some k => exact .inl ⟨k, funext fun s => by simp only [wrh, hr, hk]⟩

theorem rd_cases (c : Cfg) (reg : BitVec 8) :
    rd c reg = raiseIll .badRegister (encode (.rd reg)) ∨
    ∃ r, regOf reg = some r ∧ rd c reg = fun s => respond (readReg c r s) s := by
  cases hr : regOf reg with
  | none => exact .inl (funext fun s => by simp only [rd, hr])
  | some r => exact .inr ⟨r, rfl, funext fun s => by simp only [rd, hr]⟩

end Sys2Proof.Machine

/-! PROOF. What the block's own work, as opposed to a host write, leaves unchanged: the renderers, the envelope
calculator and the segment player write oscillators, `CUR`, `OVF` and the sample channel, and nothing else. -/

namespace Sys2Proof.Machine

open Sys2Proof

/-- What `t` has of `s` after any work of the renderers, the envelope calculator and the segment player: the operand
registers, the error record and the sequencer (10_state.md R34). -/
structure SoundFrame (s t : State) : Prop where
  start : t.start = s.start
  stop : t.stop = s.stop
  ctrl : t.ctrl = s.ctrl
  ill : t.status.ill = s.status.ill
  cause : t.status.cause = s.status.cause
  badcmd : t.badcmd = s.badcmd
  seq : t.seq = s.seq

theorem SoundFrame.refl (s : State) : SoundFrame s s := ⟨rfl, rfl, rfl, rfl, rfl, rfl, rfl⟩

theorem SoundFrame.trans {s t u : State} (h : SoundFrame s t) (h' : SoundFrame t u) : SoundFrame s u where
  start := h'.start.trans h.start
  stop := h'.stop.trans h.stop
  ctrl := h'.ctrl.trans h.ctrl
  ill := h'.ill.trans h.ill
  cause := h'.cause.trans h.cause
  badcmd := h'.badcmd.trans h.badcmd
  seq := h'.seq.trans h.seq

theorem cenv_soundFrame (c : Cfg) (src : Source) (s : State) : SoundFrame s (cenv c src s) := by
  rw [cenv_frame]; exact ⟨rfl, rfl, rfl, rfl, rfl, rfl, rfl⟩

theorem beginSlice_soundFrame (c : Cfg) (g : Segment) (i : Nat) (s : State) : SoundFrame s (beginSlice c g i s) :=
  have h : SoundFrame s (s.withCur (sliceFreqs g i)) := ⟨rfl, rfl, rfl, rfl, rfl, rfl, rfl⟩
  h.trans (cenv_soundFrame c g.src _)

theorem renderState_soundFrame (c : Cfg) (k : Kind) (s : State) : SoundFrame s (renderState c k s) := by
  rw [renderState_eq]; exact ⟨rfl, rfl, rfl, rfl, rfl, rfl, rfl⟩

theorem samples_soundFrame (c : Cfg) (k : Kind) (n : Nat) (s : State) : SoundFrame s (samples c k n s) := by
  rw [samples_frame]; exact ⟨rfl, rfl, rfl, rfl, rfl, rfl, rfl⟩

theorem playSlice_soundFrame (c : Cfg) (g : Segment) (i : Nat) (s : State) : SoundFrame s (playSlice c g i s) :=
  (beginSlice_soundFrame c g i s).trans (samples_soundFrame ..)

theorem play_soundFrame (c : Cfg) (src : Source) (n : Half) (s : State) : SoundFrame s (play c src n s) := by
  by_cases hsrc : src = .silence
  · subst hsrc; rw [play_silence]; exact samples_soundFrame ..
  · rw [play_sound hsrc]
    exact playSlices_induct (P := SoundFrame s) (fun i t h => h.trans (playSlice_soundFrame c _ i t)) _ _ (.refl s)

/-! ### `CUR` in a timeslice -/

/-- `sliceFreqs` has already forced channel 0 to 0 for aspiration (43_segment_player.md R187), so the envelope
calculator's own `CUR[0] <- 0` (42_envelope.md R168) changes nothing. -/
theorem beginSlice_cur (c : Cfg) (g : Segment) (i : Nat) (s : State) : (beginSlice c g i s).cur = sliceFreqs g i := by
  unfold beginSlice
  cases hsrc : g.src with
  | aspiration =>
    have hzero : (sliceFreqs g i).get 0 = 0#16 := by simp [sliceFreqs, hsrc]
    refine Vec4.ext_get fun ch => ?_
    change ((sliceFreqs g i).set 0 0#16).get ch = _
    rw [Vec4.get_set]
    split
    · next h => rw [h, hzero]
    · rfl
  | silence => rfl
  | frication => rfl
  | buzz => rfl

theorem samples_cur (c : Cfg) (k : Kind) (n : Nat) (s : State) : (samples c k n s).cur = s.cur := by
  rw [samples_frame]; rfl

theorem playSlice_cur (c : Cfg) (g : Segment) (i : Nat) (s : State) : (playSlice c g i s).cur = sliceFreqs g i := by
  rw [playSlice, samples_cur, beginSlice_cur]

/-- A run of timeslices leaves `CUR` at the last one's frequencies. -/
theorem playSlices_cur (c : Cfg) (g : Segment) (i k : Nat) (s : State) :
    (playSlices c g i (k + 1) s).cur = sliceFreqs g (i + k) := by
  rw [playSlices_add, playSlices_succ, playSlices_zero, playSlice_cur]

end Sys2Proof.Machine

/-! PROOF. The interpolator at the last timeslice, and where `CUR` ends (43_segment_player.md R185 to R187). -/

namespace Sys2Proof.Machine

open Sys2Proof

/-- The midpoint of two frequencies is a frequency (43_segment_player.md R186). -/
theorem interp_one_toNat (a b : Half) (i : Nat) :
    (BitVec.ofNat 16 (interp a.toNat b.toNat 1 i)).toNat = (a.toNat + b.toNat) / 2 := by
  rw [interp, if_pos rfl, BitVec.toNat_ofNat, Nat.mod_eq_of_lt (by omega)]

/-- With two slices or more the glide is exact at its end (43_segment_player.md R185). -/
theorem interp_last {n : Nat} (hn : 2 ≤ n) (a b : Nat) : interp a b n (n - 1) = b := by
  have hpos : 0 < n - 1 := by omega
  rw [interp, if_neg (by omega)]
  split
  · next h => rw [Nat.mul_div_cancel _ hpos]; omega
  · next h => rw [Nat.mul_div_cancel _ hpos]; omega

theorem sliceFreqs_get (g : Segment) (i : Nat) (ch : Fin 4) :
    (sliceFreqs g i).get ch =
      if g.src = .aspiration ∧ ch = 0 then 0#16
      else BitVec.ofNat 16 (interp (g.s.get ch).toNat (g.e.get ch).toNat g.n i) := by
  rw [sliceFreqs, Vec4.get_ofFn]

theorem latch_start_get (src : Source) (n : Half) (s : State) (ch : Fin 4) :
    (latch src n s).s.get ch = substStart (s.start.get ch) (s.stop.get ch) := by
  rw [latch, Vec4.get_ofFn]

theorem latch_stop_get (src : Source) (n : Half) (s : State) (ch : Fin 4) :
    (latch src n s).e.get ch = substEnd (s.start.get ch) (s.stop.get ch) := by
  rw [latch, Vec4.get_ofFn]

/-- A sounding `PLAY` leaves `CUR` at the frequencies of its last timeslice. -/
theorem play_cur {src : Source} {n : Half} (hsrc : src ≠ .silence) (hn : n ≠ 0#16) (c : Cfg) (s : State) :
    (play c src n s).cur = sliceFreqs (latch src n s) (n.toNat - 1) := by
  have hsucc : n.toNat = n.toNat - 1 + 1 := by bv_omega
  rw [play_sound hsrc, hsucc, playSlices_cur, Nat.zero_add, ← hsucc]

/-- Settles O34: `CUR` is left by the last timeslice, where the glide is at its end point or the midpoint. -/
theorem playEndsAtTheEndFrequencies : Obligations.PlayEndsAtTheEndFrequencies := by
  intro src n s ch hsrc hn hready
  have hcur : (playCommand Config.cfg src n s).cur = sliceFreqs (latch src n s) (n.toNat - 1) := by
    rw [playCommand_ready hready, play_cur hsrc hn]
  refine ⟨_, exec_eq _ _, ?_⟩
  rw [result, hcur, sliceFreqs_get, latch_start_get, latch_stop_get]
  refine ⟨fun hasp => if_pos hasp, fun hasp => ?_⟩
  rw [if_neg (by exact hasp)]
  constructor
  · intro htwo
    change BitVec.ofNat 16 (interp _ _ n.toNat _) = _
    rw [interp_last htwo, BitVec.ofNat_toNat, BitVec.setWidth_eq]
  · rintro rfl
    exact interp_one_toNat _ _ _

end Sys2Proof.Machine

/-! PROOF. Every step keeps the invariant. Its part about the registers (amplitude steps, error record) is kept by every
operation in every state; its part about the sequencer follows the arms of 43_segment_player.md R197. -/

namespace Sys2Proof.Machine

open Sys2Proof

/-! ### The amplitude steps -/

/-- Packing cuts the amplitude step to 6 bits, which never makes it larger. -/
theorem ampOf_packWave_le {a m : Nat} (h : a ≤ m) (timbre : BitVec 2) : (ampOf (packWave timbre a)).toNat ≤ m := by
  rw [ampOf_packWave, BitVec.toNat_ofNat]
  exact (Nat.mod_le _ _).trans h

theorem fundamental_amp_le (c : Cfg) (s : State) : (ampOf (fundamental c s).wave).toNat ≤ c.ampMax :=
  ampOf_packWave_le (by split <;> omega) _

theorem lowerOsc_amp_le (c : Cfg) (s : State) (k : Fin 3) (old : Osc) :
    (ampOf (lowerOsc c s k old).wave).toNat ≤ c.ampMax :=
  ampOf_packWave_le ((lowerShare_le ..).trans (weight_le c k)) _

theorem upperOsc_amp_le (c : Cfg) (s : State) (k : Fin 3) (old : Osc) :
    (ampOf (upperOsc c s k old).wave).toNat ≤ c.ampMax :=
  ampOf_packWave_le ((upperShare_le ..).trans (weight_le c k)) _

theorem cenvBuzz_amps (c : Cfg) (s : State) : AmpsInRange c (cenvBuzz c s)
  | 0 => fundamental_amp_le c s
  | 1 => lowerOsc_amp_le c s 0 _
  | 2 => upperOsc_amp_le c s 0 _
  | 3 => lowerOsc_amp_le c s 1 _
  | 4 => upperOsc_amp_le c s 1 _
  | 5 => lowerOsc_amp_le c s 2 _
  | 6 => upperOsc_amp_le c s 2 _

/-- Replacing one oscillator by one with an amplitude step in range keeps them all in range. -/
theorem AmpsInRange.set {c : Cfg} {s : State} (h : AmpsInRange c s) {o : Osc} (ho : (ampOf o.wave).toNat ≤ c.ampMax)
    (j : Fin 7) : AmpsInRange c (s.withOsc (s.osc.set j o)) := by
  intro i
  rw [State.withOsc_osc, Vec7.get_set]
  split
  · exact ho
  · exact h i

theorem cenv_keeps_amps (c : Cfg) (src : Source) {s : State} (h : AmpsInRange c s) : AmpsInRange c (cenv c src s) := by
  cases src with
  | silence => exact h
  | aspiration => exact AmpsInRange.set (s := muteVoiceBar s) h (fundamental_amp_le c _) 0
  | frication => exact AmpsInRange.set h (fundamental_amp_le c s) 0
  | buzz => exact cenvBuzz_amps c s

theorem beginSlice_keeps_amps (c : Cfg) (g : Segment) (i : Nat) {s : State} (h : AmpsInRange c s) :
    AmpsInRange c (beginSlice c g i s) :=
  cenv_keeps_amps c g.src (s := s.withCur (sliceFreqs g i)) h

/-- A renderer advances phases and leaves every `WAVE` register. -/
theorem oscAfter_wave (k : Kind) (s : State) (j : Fin 7) : ((oscAfter k s).get j).wave = (s.osc.get j).wave := by
  cases k with
  | formant => rw [oscAfter, Vec7.get_map]; rfl
  | fricative =>
    rw [oscAfter, Vec7.get_set]
    split
    · next h => rw [h]; rfl
    · rfl
  | silence => rfl

theorem renderState_keeps_amps (c : Cfg) (k : Kind) {s : State} (h : AmpsInRange c s) :
    AmpsInRange c (renderState c k s) := by
  intro j
  rw [renderState_eq]
  change (ampOf ((oscAfter k s).get j).wave).toNat ≤ c.ampMax
  rw [oscAfter_wave]
  exact h j

theorem samples_keeps_amps (c : Cfg) (k : Kind) (n : Nat) {s : State} (h : AmpsInRange c s) :
    AmpsInRange c (samples c k n s) :=
  samples_induct (P := AmpsInRange c) (fun _ ht => renderState_keeps_amps c k ht) n h

theorem play_keeps_amps (c : Cfg) (src : Source) (n : Half) {s : State} (h : AmpsInRange c s) :
    AmpsInRange c (play c src n s) := by
  by_cases hsrc : src = .silence
  · subst hsrc; rw [play_silence]; exact samples_keeps_amps c _ _ h
  · rw [play_sound hsrc]
    exact playSlices_induct (P := AmpsInRange c)
      (fun i _ ht => samples_keeps_amps c _ _ (beginSlice_keeps_amps c _ i ht)) _ _ h

/-- The check on the value of a `WRL` of a `WAVE` register (44_host_access.md R211) bounds the amplitude step. -/
theorem lowWriteCause_oscWave {c : Cfg} {j : Fin 7} {imm : Half} (h : lowWriteCause c (.oscWave j) imm = none) :
    (ampOf (imm.extractLsb' 0 8)).toNat ≤ c.ampMax := by
  simp only [lowWriteCause] at h
  split at h
  · next hok =>
    have hamp : ampOf (imm.extractLsb' 0 8) = imm.extractLsb' 0 6 := by
      ext i hi; simp [ampOf]
    rw [hamp]; exact hok.2
  · contradiction

/-! ### The error record -/

/-- Only the error action and its return write the error record. -/
theorem SoundFrame.keeps_record {s t : State} (h : SoundFrame s t) (hs : ErrorRecordSound s) : ErrorRecordSound t := by
  rw [ErrorRecordSound, h.ill, h.cause, h.badcmd]; exact hs

theorem causeCode_range (k : Cause) : 1 ≤ (causeCode k).toNat ∧ (causeCode k).toNat ≤ 5 := by
  cases k <;> decide

theorem recordIll_keeps_record (k : Cause) (w : Word) {s : State} (h : ErrorRecordSound s) :
    ErrorRecordSound (recordIll k w s) := by
  cases hill : s.status.ill
  · rw [recordIll_first hill]; exact causeCode_range k
  · rw [recordIll_again hill]; exact h

theorem clearStatus_keeps_record (imm : Half) {s : State} (h : ErrorRecordSound s) :
    ErrorRecordSound (clearStatus imm s) := by
  rw [clearStatus_eq]
  cases hbit : imm.getLsbD 0
  · simpa [ErrorRecordSound] using h
  · simp [ErrorRecordSound]

/-! ### The registers together -/

/-- The part of the invariant that does not speak of the sequencer. -/
structure RegsSound (c : Cfg) (s : State) : Prop where
  amps : AmpsInRange c s
  record : ErrorRecordSound s

theorem respond_keeps_regs {c : Cfg} (v : Word) {s : State} (h : RegsSound c s) : RegsSound c (respond v s) := by
  rw [respond_frame]; exact ⟨h.amps, h.record⟩

theorem raiseIll_keeps_regs {c : Cfg} (k : Cause) (w : Word) {s : State} (h : RegsSound c s) :
    RegsSound c (raiseIll k w s) := by
  have hrec : RegsSound c (recordIll k w s) :=
    ⟨by rw [recordIll_frame]; exact h.amps, recordIll_keeps_record k w h.record⟩
  by_cases hop : opcodeOf w = 0x3#4
  · rw [raiseIll_rd hop]; exact respond_keeps_regs _ hrec
  · rw [raiseIll_other hop]; exact hrec

theorem writeLow_keeps_regs {c : Cfg} {r : Reg} {imm : Half} (hok : lowWriteCause c r imm = none) {s : State}
    (h : RegsSound c s) : RegsSound c (writeLow r imm s) := by
  cases r with
  | status => exact ⟨by rw [writeLow, clearStatus_eq]; exact h.amps, clearStatus_keeps_record imm h.record⟩
  | oscFreq j => exact ⟨h.amps.set (o := { s.osc.get j with freq := imm }) (h.amps j) j, h.record⟩
  | oscPhase j => exact ⟨h.amps.set (o := { s.osc.get j with phase := imm }) (h.amps j) j, h.record⟩
  | oscWave j =>
    have hwave := lowWriteCause_oscWave hok
    exact ⟨h.amps.set (o := { s.osc.get j with wave := imm.extractLsb' 0 8 }) hwave j, h.record⟩
  | ctrl | sliceLen | badcmd | start _ | stop _ | cur _ | foscFreq _ | foscPhase _ => exact ⟨h.amps, h.record⟩

theorem writeHigh_keeps_regs {c : Cfg} (r : Reg) (imm : Half) {s : State} (h : RegsSound c s) :
    RegsSound c (writeHigh r imm s) := by
  cases r <;> exact ⟨h.amps, h.record⟩

theorem wrl_keeps_regs (c : Cfg) (reg : BitVec 8) (imm : Half) {s : State} (h : RegsSound c s) :
    RegsSound c (wrl c reg imm s) := by
  obtain ⟨k, hk⟩ | ⟨r, -, hok, hr⟩ := wrl_cases c reg imm
  · rw [hk]; exact raiseIll_keeps_regs _ _ h
  · rw [hr]; exact writeLow_keeps_regs hok h

theorem wrh_keeps_regs {c : Cfg} (reg : BitVec 8) (imm : Half) {s : State} (h : RegsSound c s) :
    RegsSound c (wrh reg imm s) := by
  obtain ⟨k, hk⟩ | ⟨r, hr⟩ := wrh_cases reg imm
  · rw [hk]; exact raiseIll_keeps_regs _ _ h
  · rw [hr]; exact writeHigh_keeps_regs r imm h

theorem rd_keeps_regs {c : Cfg} (d : Cfg) (reg : BitVec 8) {s : State} (h : RegsSound c s) :
    RegsSound c (rd d reg s) := by
  obtain hk | ⟨r, -, hr⟩ := rd_cases d reg
  · rw [hk]; exact raiseIll_keeps_regs _ _ h
  · rw [hr]; exact respond_keeps_regs _ h

theorem resetBlock_regs (c : Cfg) (s : State) : RegsSound c (resetBlock s) where
  amps j := by
    have hzero : ((resetBlock s).osc.get j).wave = 0#8 := by rw [resetBlock_eq]; simp [State.reset]
    rw [hzero]; exact Nat.zero_le _
  record := ⟨rfl, rfl⟩

theorem samples_keeps_regs (c : Cfg) (k : Kind) (n : Nat) {s : State} (h : RegsSound c s) :
    RegsSound c (samples c k n s) :=
  ⟨samples_keeps_amps c k n h.amps, (samples_soundFrame c k n s).keeps_record h.record⟩

theorem renderCommand_keeps_regs (c : Cfg) (op : SeqOp) (k : Kind) (n : Half) {s : State} (h : RegsSound c s) :
    RegsSound c (renderCommand c op k n s) := by
  unfold renderCommand
  split
  · exact h
  split
  · exact samples_keeps_regs c k _ h
  · exact ⟨h.amps, h.record⟩

theorem startPlay_keeps_regs (c : Cfg) (src : Source) (n : Half) {s : State} (h : RegsSound c s) :
    RegsSound c (startPlay c src n s) := by
  unfold startPlay; split <;> exact ⟨h.amps, h.record⟩

theorem playCommand_keeps_regs (c : Cfg) (src : Source) (n : Half) {s : State} (h : RegsSound c s) :
    RegsSound c (playCommand c src n s) := by
  unfold playCommand
  split
  · exact h
  split
  · exact ⟨play_keeps_amps c src n h.amps, (play_soundFrame c src n s).keeps_record h.record⟩
  · exact startPlay_keeps_regs c src n h

theorem result_keeps_regs (i : Instr) {s : State} (h : RegsSound Config.cfg s) : RegsSound Config.cfg (result i s) := by
  cases i with
  | nop => exact h
  | wrl reg imm => exact wrl_keeps_regs _ reg imm h
  | wrh reg imm => exact wrh_keeps_regs reg imm h
  | rd reg => exact rd_keeps_regs _ reg h
  | play src n => exact playCommand_keeps_regs _ src n h
  | cenv src => exact ⟨cenv_keeps_amps _ src h.amps, (cenv_soundFrame _ src s).keeps_record h.record⟩
  | rform n => exact renderCommand_keeps_regs _ _ _ n h
  | rfric n => exact renderCommand_keeps_regs _ _ _ n h
  | rsil n => exact renderCommand_keeps_regs _ _ _ n h
  | reset => exact resetBlock_regs _ s

/-! ### The sequencer in IDLE -/

/-- The sequencer renders nothing: it waits for a word or for the host to take a response. -/
def AtRest (q : Seq) : Prop := q.st = .idle ∨ q.st = .resp

theorem AtRest.seqSound {s : State} (h : AtRest s.seq) (c : Cfg) : SeqSound c s := by
  unfold SeqSound
  obtain h | h := h <;> rw [h] <;> trivial

theorem respond_atRest (v : Word) {s : State} (h : AtRest s.seq) : AtRest (respond v s).seq := by
  cases hr : s.rspReady
  · rw [respond_busy hr]; exact .inr rfl
  · rw [respond_ready hr]; exact h

theorem raiseIll_atRest (k : Cause) (w : Word) {s : State} (h : AtRest s.seq) : AtRest (raiseIll k w s).seq := by
  have hrec : AtRest (recordIll k w s).seq := by rw [recordIll_frame]; exact h
  by_cases hop : opcodeOf w = 0x3#4
  · rw [raiseIll_rd hop]; exact respond_atRest _ hrec
  · rw [raiseIll_other hop]; exact hrec

theorem writeLow_seq (r : Reg) (imm : Half) (s : State) : (writeLow r imm s).seq = s.seq := by
  cases r
  case status => rw [writeLow, clearStatus_eq]; rfl
  all_goals rfl

theorem writeHigh_seq (r : Reg) (imm : Half) (s : State) : (writeHigh r imm s).seq = s.seq := by
  cases r <;> rfl

theorem wrl_atRest (c : Cfg) (reg : BitVec 8) (imm : Half) {s : State} (h : AtRest s.seq) :
    AtRest (wrl c reg imm s).seq := by
  obtain ⟨k, hk⟩ | ⟨r, -, -, hr⟩ := wrl_cases c reg imm
  · rw [hk]; exact raiseIll_atRest _ _ h
  · rw [hr, writeLow_seq]; exact h

theorem wrh_atRest (reg : BitVec 8) (imm : Half) {s : State} (h : AtRest s.seq) : AtRest (wrh reg imm s).seq := by
  obtain ⟨k, hk⟩ | ⟨r, hr⟩ := wrh_cases reg imm
  · rw [hk]; exact raiseIll_atRest _ _ h
  · rw [hr, writeHigh_seq]; exact h

theorem rd_atRest (c : Cfg) (reg : BitVec 8) {s : State} (h : AtRest s.seq) : AtRest (rd c reg s).seq := by
  obtain hk | ⟨r, -, hr⟩ := rd_cases c reg
  · rw [hk]; exact raiseIll_atRest _ _ h
  · rw [hr]; exact respond_atRest _ h

/-! ### The sequencer started by a command -/

theorem CountSound.of_render {c : Cfg} {q : Seq} (hop : q.op ≠ .play) (hcnt : q.cnt.toNat ≤ 65535) :
    CountSound c q := by
  rw [CountSound, if_neg hop]; exact hcnt

theorem CountSound.of_silence {c : Cfg} {q : Seq} (hop : q.op = .play) (hsrc : q.src = .silence)
    (hcnt : q.cnt.toNat = q.n.toNat * c.sliceLen) : CountSound c q := by
  rw [CountSound, if_pos hop, if_pos hsrc]; exact hcnt

theorem CountSound.of_slice {c : Cfg} {q : Seq} (hop : q.op = .play) (hsrc : q.src ≠ .silence)
    (hcnt : q.cnt.toNat = c.sliceLen) : CountSound c q := by
  rw [CountSound, if_pos hop, if_neg hsrc]; exact hcnt

/-- A renderer command's run: fewer samples accepted than its count, which is at most 65535. -/
theorem startRender_seqSound (c : Cfg) {op : SeqOp} (hop : op ≠ .play) {n : Half} (hn : n ≠ 0#16) (s : State) :
    SeqSound c (startRender op n s) := by
  have hcnt : (n.setWidth 32).toNat = n.toNat := by rw [BitVec.toNat_setWidth, Nat.mod_eq_of_lt (by omega)]
  have hpos : 0 < n.toNat := by bv_omega
  exact ⟨hcnt.symm ▸ hpos, .of_render hop (hcnt.trans_le (by omega)), fun h => absurd h.1 hop⟩

/-- Zero substitution makes both end points of a channel 0 or neither (43_segment_player.md R184). -/
theorem substStart_eq_zero_iff (a b : Half) : substStart a b = 0#16 ↔ substEnd a b = 0#16 := by
  unfold substStart substEnd
  by_cases ha : a = 0#16 <;> by_cases hb : b = 0#16 <;> simp [ha, hb]

/-- `N * SLICE_LEN` fits `SEQ.CNT`: its 32 bits hold a product of two 16-bit numbers. -/
theorem silentCount_toNat (n : Half) :
    (BitVec.ofNat 32 (n.toNat * Config.cfg.sliceLen)).toNat = n.toNat * Config.cfg.sliceLen := by
  have hle : n.toNat * Config.cfg.sliceLen ≤ 65535 * 65535 :=
    Nat.mul_le_mul (by omega) Config.cfg_valid.sliceLen_le
  rw [BitVec.toNat_ofNat, Nat.mod_eq_of_lt (by omega)]

theorem startPlay_seqSound (src : Source) {n : Half} (hn : n ≠ 0#16) (s : State) :
    SeqSound Config.cfg (startPlay Config.cfg src n s) := by
  have hpos : 0 < n.toNat := by bv_omega
  unfold startPlay
  split
  · next hsrc =>
    have hlt := Nat.mul_pos hpos Config.cfg_valid.sliceLen_pos
    exact ⟨(silentCount_toNat n).symm ▸ hlt, .of_silence rfl hsrc (silentCount_toNat n), fun h => absurd hsrc h.2⟩
  · next hsrc =>
    refine ⟨rfl, hsrc, hpos, fun ch => ?_⟩
    simp only [State.withSeq_seq, latch_start_get, latch_stop_get]
    exact substStart_eq_zero_iff _ _

theorem renderCommand_seqSound (c : Cfg) {op : SeqOp} (hop : op ≠ .play) (k : Kind) (n : Half) {s : State}
    (h : AtRest s.seq) : SeqSound c (renderCommand c op k n s) := by
  unfold renderCommand
  split
  · exact h.seqSound c
  next hn =>
    split
    · exact AtRest.seqSound ((samples_soundFrame c k _ s).seq.symm ▸ h) c
    · exact startRender_seqSound c hop hn s

theorem playCommand_seqSound (src : Source) (n : Half) {s : State} (h : AtRest s.seq) :
    SeqSound Config.cfg (playCommand Config.cfg src n s) := by
  unfold playCommand
  split
  · exact h.seqSound _
  next hn =>
    split
    · exact AtRest.seqSound ((play_soundFrame _ src n s).seq.symm ▸ h) _
    · exact startPlay_seqSound src hn s

theorem result_seqSound (i : Instr) {s : State} (h : AtRest s.seq) : SeqSound Config.cfg (result i s) := by
  cases i with
  | nop => exact h.seqSound _
  | wrl reg imm => exact (wrl_atRest _ reg imm h).seqSound _
  | wrh reg imm => exact (wrh_atRest reg imm h).seqSound _
  | rd reg => exact (rd_atRest _ reg h).seqSound _
  | play src n => exact playCommand_seqSound src n h
  | cenv src => exact AtRest.seqSound ((cenv_soundFrame _ src s).seq.symm ▸ h) _
  | rform n => exact renderCommand_seqSound _ (by decide) _ n h
  | rfric n => exact renderCommand_seqSound _ (by decide) _ n h
  | rsil n => exact renderCommand_seqSound _ (by decide) _ n h
  | reset => exact AtRest.seqSound (.inl rfl) _

/-! ### The sequencer's own transitions -/

theorem tickResp_keeps_invariant {c : Cfg} {s : State} (h : Invariant c s) : Invariant c (tickResp s) := by
  unfold tickResp
  split
  · exact ⟨h.amps, h.record, AtRest.seqSound (.inl rfl) c⟩
  · exact h

/-- A timeslice begins: its run is `SLICE_LEN` samples, and `CUR` has just been written. -/
theorem tickSlice_keeps_invariant {s : State} (h : Invariant Config.cfg s) (hst : s.seq.st = .slice) :
    Invariant Config.cfg (tickSlice Config.cfg s) where
  amps := beginSlice_keeps_amps Config.cfg (seqSegment s.seq) s.seq.i.toNat h.amps
  record := (beginSlice_soundFrame Config.cfg (seqSegment s.seq) s.seq.i.toNat s).keeps_record h.record
  seq := by
    have hseq := h.seq
    rw [SeqSound, hst] at hseq
    obtain ⟨hop, hsrc, hi, hends⟩ := hseq
    exact ⟨sliceLen_toNat.symm ▸ Config.cfg_valid.sliceLen_pos, .of_slice hop hsrc sliceLen_toNat,
      fun _ => ⟨⟨hop, hsrc, hi, hends⟩, beginSlice_cur ..⟩⟩

/-- Computing a sample moves only phases, `OVF`, `SEQ.OUT` and `SEQ.ST`, so the run goes on as it was. -/
theorem tickRender_keeps_invariant {c : Cfg} {s : State} (h : Invariant c s) (hst : s.seq.st = .render) :
    Invariant c (tickRender c s) where
  amps := renderState_keeps_amps c (seqKind s.seq) h.amps
  record := (renderState_soundFrame c (seqKind s.seq) s).keeps_record h.record
  seq := by
    have hrun := h.seq
    rw [SeqSound, hst] at hrun
    rw [tickRender, renderState_eq]
    exact hrun

/-- The next state after an accepted sample: `SEQ.J` and `SEQ.I` are counted up only while below their bounds. -/
theorem afterAccept_seqSound {c : Cfg} {s : State} (h : InRun c s) : SeqSound c (s.withSeq (afterAccept s.seq)) := by
  obtain ⟨hj, hcnt, hslice⟩ := h
  unfold afterAccept
  split
  next hmore =>
    refine ⟨?_, hcnt, hslice⟩
    change (s.seq.j + 1#32).toNat < s.seq.cnt.toNat
    bv_omega
  next =>
    split
    next hnext =>
      obtain ⟨hop, hsrc, hi⟩ := hnext
      obtain ⟨⟨-, -, -, hends⟩, -⟩ := hslice ⟨hop, hsrc⟩
      refine ⟨hop, hsrc, ?_, hends⟩
      change (s.seq.i + 1#16).toNat < s.seq.n.toNat
      bv_omega
    next => exact AtRest.seqSound (.inl rfl) c

theorem tickEmit_keeps_invariant {c : Cfg} {s : State} (h : Invariant c s) (hst : s.seq.st = .emit) :
    Invariant c (tickEmit s) := by
  have hrun := h.seq
  rw [SeqSound, hst] at hrun
  unfold tickEmit
  split
  · exact ⟨h.amps, h.record, afterAccept_seqSound hrun⟩
  · exact h

/-! ### The step -/

/-- An operation that keeps the registers sound and leaves the sequencer sound makes a state with the invariant. -/
theorem RegsSound.invariant {c : Cfg} {s : State} (h : RegsSound c s) (hseq : SeqSound c s) : Invariant c s :=
  ⟨h.amps, h.record, hseq⟩

/-- Settles O55: case by case over what a step can be (`step_cases`). -/
theorem everyStepKeepsTheInvariant : Obligations.EveryStepKeepsTheInvariant := by
  intro s t hs hstep
  obtain ⟨-, rfl⟩ | ⟨-, -, -, rfl⟩ | ⟨-, hst, w, ws, -, ⟨i, -, rfl⟩ | ⟨k, -, rfl⟩⟩ | ⟨-, -, rfl⟩ | ⟨-, hst, rfl⟩ |
    ⟨-, hst, rfl⟩ | ⟨-, hst, rfl⟩ := step_cases hstep
  case inl =>
    obtain ⟨hamps, hrecord⟩ := resetBlock_regs Config.cfg s
    exact ⟨hamps, hrecord, AtRest.seqSound (.inl rfl) _⟩
  case inr.inl => exact hs
  case inr.inr.inl.inl =>
    have hregs : RegsSound Config.cfg (s.withCmds ws) := ⟨hs.amps, hs.record⟩
    exact (result_keeps_regs i hregs).invariant (result_seqSound i (.inl hst))
  case inr.inr.inl.inr =>
    have hregs : RegsSound Config.cfg (s.withCmds ws) := ⟨hs.amps, hs.record⟩
    have hrest : AtRest (s.withCmds ws).seq := .inl hst
    exact (raiseIll_keeps_regs k w hregs).invariant ((raiseIll_atRest k w hrest).seqSound _)
  · exact tickResp_keeps_invariant hs
  · exact tickSlice_keeps_invariant hs hst
  · exact tickRender_keeps_invariant hs hst
  · exact tickEmit_keeps_invariant hs hst

end Sys2Proof.Machine

/-! PROOF. No command reads a flag: two states that agree outside `STATUS` and `BADCMD` are led by every operation to
two states that agree there (10_state.md R29). -/

namespace Sys2Proof.Machine

open Sys2Proof

/-- The two states differ in `STATUS` and `BADCMD` at most. -/
def SameButFlags (s t : State) : Prop := t = (s.withStatus t.status).withBadcmd t.badcmd

theorem SameButFlags.symm {s t : State} (h : SameButFlags s t) : SameButFlags t s := by
  rw [SameButFlags, h]; rfl

theorem SameButFlags.trans {s t u : State} (h : SameButFlags s t) (h' : SameButFlags t u) : SameButFlags s u := by
  rw [SameButFlags, h', h]; rfl

theorem SameButFlags.smpReady {s t : State} (h : SameButFlags s t) : t.smpReady = s.smpReady := by rw [h]; rfl

/-- The operation reads neither `STATUS` nor `BADCMD`, unless to compute these two. -/
def FlagBlind (f : State → State) : Prop := ∀ ⦃s t⦄, SameButFlags s t → SameButFlags (f s) (f t)

theorem FlagBlind.comp {f g : State → State} (hg : FlagBlind g) (hf : FlagBlind f) : FlagBlind fun s => g (f s) :=
  fun _ _ h => hg (hf h)

/-- An operation that commutes with a write of the flags is flag-blind. -/
theorem FlagBlind.of_commutes {f : State → State}
    (h : ∀ s x w, SameButFlags (f s) (f ((s.withStatus x).withBadcmd w))) : FlagBlind f := by
  intro s t hst
  rw [hst]
  exact h s t.status t.badcmd

/-- An operation that writes nothing but the flags is flag-blind, whatever it reads. -/
theorem FlagBlind.of_writes_flags {f : State → State} (h : ∀ s, SameButFlags s (f s)) : FlagBlind f :=
  fun s t hst => (h s).symm.trans (hst.trans (h t))

/-! ### Host access -/

theorem flagBlind_respond {v : State → Word} (hv : ∀ s x w, v ((s.withStatus x).withBadcmd w) = v s) :
    FlagBlind fun s => respond (v s) s :=
  .of_commutes fun s x w => by
    rw [hv]
    cases h : s.rspReady
    · rw [respond_busy h, respond_busy (s := (s.withStatus x).withBadcmd w) h]; rfl
    · rw [respond_ready h, respond_ready (s := (s.withStatus x).withBadcmd w) h]; rfl

theorem flagBlind_raiseIll (k : Cause) (w : Word) : FlagBlind (raiseIll k w) := by
  have hrec : FlagBlind (recordIll k w) := .of_writes_flags fun s => recordIll_frame k w s
  by_cases h : opcodeOf w = 0x3#4
  · rw [funext (raiseIll_rd h k)]
    exact (flagBlind_respond (v := fun _ => 0#32) fun _ _ _ => rfl).comp hrec
  · rw [funext (raiseIll_other h k)]
    exact hrec

theorem flagBlind_writeLow (r : Reg) (imm : Half) : FlagBlind (writeLow r imm) := by
  cases r
  case status => exact .of_writes_flags fun s => by rw [writeLow, clearStatus_eq]; rfl
  all_goals exact .of_commutes fun s x w => rfl

theorem flagBlind_writeHigh (r : Reg) (imm : Half) : FlagBlind (writeHigh r imm) := by
  cases r <;> exact .of_commutes fun s x w => rfl

theorem flagBlind_wrl (c : Cfg) (reg : BitVec 8) (imm : Half) : FlagBlind (wrl c reg imm) := by
  obtain ⟨k, hk⟩ | ⟨r, -, -, hr⟩ := wrl_cases c reg imm
  · rw [hk]; exact flagBlind_raiseIll _ _
  · rw [hr]; exact flagBlind_writeLow r imm

theorem flagBlind_wrh (reg : BitVec 8) (imm : Half) : FlagBlind (wrh reg imm) := by
  obtain ⟨k, hk⟩ | ⟨r, hr⟩ := wrh_cases reg imm
  · rw [hk]; exact flagBlind_raiseIll _ _
  · rw [hr]; exact flagBlind_writeHigh r imm

/-- Of all registers only `STATUS` and `BADCMD` read back a flag. -/
theorem flagBlind_rd (c : Cfg) {reg : BitVec 8} (hstatus : reg ≠ 0x01#8) (hbadcmd : reg ≠ 0x03#8) :
    FlagBlind (rd c reg) := by
  obtain hk | ⟨r, hr, hrd⟩ := rd_cases c reg
  · rw [hk]; exact flagBlind_raiseIll _ _
  · rw [hrd]
    have hnum := regNumber_of_regOf hr
    refine flagBlind_respond fun s x w => ?_
    cases r
    case status => exact absurd hnum.symm hstatus
    case badcmd => exact absurd hnum.symm hbadcmd
    all_goals rfl

/-! ### The commands that render -/

theorem flagBlind_cenv (c : Cfg) (src : Source) : FlagBlind (cenv c src) :=
  .of_commutes fun s x w => by cases src <;> rfl

theorem flagBlind_beginSlice (c : Cfg) (g : Segment) (i : Nat) : FlagBlind (beginSlice c g i) :=
  have h : FlagBlind fun s => s.withCur (sliceFreqs g i) := .of_commutes fun _ _ _ => rfl
  (flagBlind_cenv c g.src).comp h

/-- A sample depends on the oscillators; `OVF` goes into `OVF` alone. -/
theorem flagBlind_sample (c : Cfg) (k : Kind) : FlagBlind (sample c k) :=
  .of_commutes fun s x w => by rw [sample_eq, sample_eq]; cases k <;> rfl

theorem flagBlind_samples (c : Cfg) (k : Kind) (n : Nat) : FlagBlind (samples c k n) := by
  induction n with
  | zero => exact fun _ _ h => h
  | succ n ih => exact ih.comp (flagBlind_sample c k)

theorem flagBlind_playSlices (c : Cfg) (g : Segment) (i k : Nat) : FlagBlind (playSlices c g i k) := by
  induction k generalizing i with
  | zero => exact fun _ _ h => h
  | succ k ih => exact (ih (i + 1)).comp ((flagBlind_samples c _ _).comp (flagBlind_beginSlice c g i))

theorem flagBlind_play (c : Cfg) (src : Source) (n : Half) : FlagBlind (play c src n) := by
  by_cases hsrc : src = .silence
  · subst hsrc
    rw [funext (play_silence c n)]
    exact flagBlind_samples c _ _
  · rw [funext (play_sound hsrc c n)]
    intro s t h
    have hlatch : latch src n t = latch src n s := by rw [h]; rfl
    simp only [hlatch]
    exact flagBlind_playSlices c _ _ _ h

theorem flagBlind_startPlay (c : Cfg) (src : Source) (n : Half) : FlagBlind (startPlay c src n) :=
  .of_commutes fun s x w => by unfold startPlay; split <;> rfl

theorem flagBlind_playCommand (c : Cfg) (src : Source) (n : Half) : FlagBlind (playCommand c src n) := by
  intro s t h
  unfold playCommand
  rw [h.smpReady]
  split
  · exact h
  split
  · exact flagBlind_play c src n h
  · exact flagBlind_startPlay c src n h

theorem flagBlind_renderCommand (c : Cfg) (op : SeqOp) (k : Kind) (n : Half) :
    FlagBlind (renderCommand c op k n) := by
  have hstart : FlagBlind (startRender op n) := .of_commutes fun _ _ _ => rfl
  intro s t h
  unfold renderCommand
  rw [h.smpReady]
  split
  · exact h
  split
  · exact flagBlind_samples c k _ h
  · exact hstart h

theorem flagBlind_result {i : Instr} (hstatus : i ≠ .rd 0x01#8) (hbadcmd : i ≠ .rd 0x03#8) : FlagBlind (result i) := by
  cases i with
  | nop => exact fun _ _ h => h
  | wrl reg imm => exact flagBlind_wrl _ reg imm
  | wrh reg imm => exact flagBlind_wrh reg imm
  | rd reg => exact flagBlind_rd _ (fun h => hstatus (h ▸ rfl)) (fun h => hbadcmd (h ▸ rfl))
  | play src n => exact flagBlind_playCommand _ src n
  | cenv src => exact flagBlind_cenv _ src
  | rform n => exact flagBlind_renderCommand _ _ _ n
  | rfric n => exact flagBlind_renderCommand _ _ _ n
  | rsil n => exact flagBlind_renderCommand _ _ _ n
  | reset => exact .of_commutes fun _ _ _ => rfl

/-- Settles O45: every command but the two reads is flag-blind. -/
theorem flagsDecideNothing : Obligations.FlagsDecideNothing := by
  intro i s t t' st bad hstatus hbadcmd ht ht'
  rw [exec_eq] at ht ht'
  injection ht with ht
  injection ht' with ht'
  have hs : SameButFlags s { s with status := st, badcmd := bad } := rfl
  have h := flagBlind_result hstatus hbadcmd hs
  rw [ht, ht'] at h
  exact h

end Sys2Proof.Machine

/-! PROOF. The operand registers `START`, `END` and `CTRL` are written by the host alone (10_state.md R25, R34): of all
operations only a `WRL` of one of their numbers and the reset write one. -/

namespace Sys2Proof.Machine

open Sys2Proof Sys2Proof.Spec

/-- The two states have the same operand registers. -/
structure SameOperands (s t : State) : Prop where
  start : t.start = s.start
  stop : t.stop = s.stop
  ctrl : t.ctrl = s.ctrl

theorem SameOperands.trans {s t u : State} (h : SameOperands s t) (h' : SameOperands t u) : SameOperands s u :=
  ⟨h'.start.trans h.start, h'.stop.trans h.stop, h'.ctrl.trans h.ctrl⟩

theorem SoundFrame.sameOperands {s t : State} (h : SoundFrame s t) : SameOperands s t := ⟨h.start, h.stop, h.ctrl⟩

/-- `START[c]`, `END[c]` and `CTRL`. -/
def OperandReg : Reg → Prop
  | .ctrl | .start _ | .stop _ => True
  | _ => False

theorem OperandReg.number {r : Reg} (h : OperandReg r) :
    (regNumber r).toNat = 0x00 ∨ 0x10 ≤ (regNumber r).toNat ∧ (regNumber r).toNat ≤ 0x17 := by
  cases r with
  | ctrl => exact .inl rfl
  | start ch => simp only [regNumber, BitVec.toNat_ofNat]; omega
  | stop ch => simp only [regNumber, BitVec.toNat_ofNat]; omega
  | _ => exact h.elim

theorem respond_sameOperands (v : Word) (s : State) : SameOperands s (respond v s) := by
  rw [respond_frame]; exact ⟨rfl, rfl, rfl⟩

theorem recordIll_sameOperands (k : Cause) (w : Word) (s : State) : SameOperands s (recordIll k w s) := by
  rw [recordIll_frame]; exact ⟨rfl, rfl, rfl⟩

theorem raiseIll_sameOperands (k : Cause) (w : Word) (s : State) : SameOperands s (raiseIll k w s) := by
  have hrec := recordIll_sameOperands k w s
  by_cases hop : opcodeOf w = 0x3#4
  · rw [raiseIll_rd hop]; exact hrec.trans (respond_sameOperands ..)
  · rw [raiseIll_other hop]; exact hrec

theorem writeLow_sameOperands {r : Reg} (hr : ¬OperandReg r) (imm : Half) (s : State) :
    SameOperands s (writeLow r imm s) := by
  cases r with
  | ctrl | start _ | stop _ => exact absurd trivial hr
  | status => rw [writeLow, clearStatus_eq]; exact ⟨rfl, rfl, rfl⟩
  | _ => exact ⟨rfl, rfl, rfl⟩

theorem wrh_sameOperands (reg : BitVec 8) (imm : Half) (s : State) : SameOperands s (wrh reg imm s) := by
  obtain ⟨k, hk⟩ | ⟨r, hr⟩ := wrh_cases reg imm
  · rw [hk]; exact raiseIll_sameOperands ..
  · rw [hr]; cases r <;> exact ⟨rfl, rfl, rfl⟩

theorem rd_sameOperands (c : Cfg) (reg : BitVec 8) (s : State) : SameOperands s (rd c reg s) := by
  obtain hk | ⟨r, -, hr⟩ := rd_cases c reg
  · rw [hk]; exact raiseIll_sameOperands ..
  · rw [hr]; exact respond_sameOperands ..

theorem renderCommand_sameOperands (c : Cfg) (op : SeqOp) (k : Kind) (n : Half) (s : State) :
    SameOperands s (renderCommand c op k n s) := by
  unfold renderCommand
  split
  · exact ⟨rfl, rfl, rfl⟩
  split
  · exact (samples_soundFrame c k _ s).sameOperands
  · exact ⟨rfl, rfl, rfl⟩

theorem playCommand_sameOperands (c : Cfg) (src : Source) (n : Half) (s : State) :
    SameOperands s (playCommand c src n s) := by
  unfold playCommand
  split
  · exact ⟨rfl, rfl, rfl⟩
  split
  · exact (play_soundFrame c src n s).sameOperands
  · unfold startPlay; split <;> exact ⟨rfl, rfl, rfl⟩

/-- A `WRL` leaves the operand registers, or its number is one of theirs. -/
theorem wrl_operands (c : Cfg) (reg : BitVec 8) (imm : Half) (s : State) :
    SameOperands s (wrl c reg imm s) ∨ reg.toNat = 0x00 ∨ 0x10 ≤ reg.toNat ∧ reg.toNat ≤ 0x17 := by
  obtain ⟨k, hk⟩ | ⟨r, hreg, -, hr⟩ := wrl_cases c reg imm
  · rw [hk]; exact .inl (raiseIll_sameOperands ..)
  · rw [hr, ← regNumber_of_regOf hreg]
    by_cases hop : OperandReg r
    · exact .inr hop.number
    · exact .inl (writeLow_sameOperands hop imm s)

/-- The commands that can change an operand register. -/
theorem result_operands (i : Instr) (s : State) :
    SameOperands s (result i s) ∨ i = .reset ∨
      ∃ reg imm, i = .wrl reg imm ∧ (reg.toNat = 0x00 ∨ 0x10 ≤ reg.toNat ∧ reg.toNat ≤ 0x17) := by
  cases i with
  | nop => exact .inl ⟨rfl, rfl, rfl⟩
  | wrl reg imm => exact (wrl_operands _ reg imm s).imp_right fun h => .inr ⟨reg, imm, rfl, h⟩
  | wrh reg imm => exact .inl (wrh_sameOperands reg imm s)
  | rd reg => exact .inl (rd_sameOperands _ reg s)
  | play src n => exact .inl (playCommand_sameOperands _ src n s)
  | cenv src => exact .inl (cenv_soundFrame _ src s).sameOperands
  | rform n => exact .inl (renderCommand_sameOperands _ _ _ n s)
  | rfric n => exact .inl (renderCommand_sameOperands _ _ _ n s)
  | rsil n => exact .inl (renderCommand_sameOperands _ _ _ n s)
  | reset => exact .inr (.inl rfl)

/-! ### The words of these commands -/

/-- The fields of a word that decodes to a `WRL` (30_encoding.md R91, R92). -/
theorem decode_wrl {w : Word} {reg : BitVec 8} {imm : Half} (h : decode w = .command (.wrl reg imm)) :
    opcodeOf w = 0x1#4 ∧ w.extractLsb' 16 4 = 0#4 ∧ regField w = reg ∧ lowField w = imm := by
  unfold decode at h
  split at h
  case h_2 hop =>
    obtain ⟨hzero, hinstr⟩ := withZero_command h
    injection hinstr with hreg himm
    exact ⟨hop, hzero, hreg, himm⟩
  case h_11 => contradiction
  all_goals exact Instr.noConfusion (withZero_command h).2

/-- The fields of a word that decodes to `RESET` (30_encoding.md R91, R92). -/
theorem decode_reset {w : Word} (h : decode w = .command .reset) : opcodeOf w = 0xF#4 ∧ w.extractLsb' 0 28 = 0#28 := by
  unfold decode at h
  split at h
  case h_10 hop => exact ⟨hop, (withZero_command h).1⟩
  case h_11 => contradiction
  all_goals exact Instr.noConfusion (withZero_command h).2

theorem word_of_decode_wrl {w : Word} {reg : BitVec 8} {imm : Half} (h : decode w = .command (.wrl reg imm)) :
    w = BitVec.ofNat 32 (wrlWord reg imm) := by
  obtain ⟨hop, hzero, rfl, rfl⟩ := decode_wrl h
  have hop : w.toNat / 2 ^ 28 = 1 := by rw [← opcodeOf_toNat, hop]; rfl
  have hzero : w.toNat / 2 ^ 16 % 16 = 0 := by
    have := congrArg BitVec.toNat hzero
    simpa [Nat.shiftRight_eq_div_pow] using this
  apply BitVec.eq_of_toNat_eq
  rw [BitVec.toNat_ofNat, wrlWord, regField_toNat, lowField_toNat]
  omega

theorem word_of_decode_reset {w : Word} (h : decode w = .command .reset) : w = 0xF0000000#32 := by
  obtain ⟨hop, hzero⟩ := decode_reset h
  have hop : w.toNat / 2 ^ 28 = 15 := by rw [← opcodeOf_toNat, hop]; rfl
  have hzero : w.toNat % 2 ^ 28 = 0 := by
    have := congrArg BitVec.toNat hzero
    simpa using this
  apply BitVec.eq_of_toNat_eq
  rw [BitVec.toNat_ofNat]
  omega

/-! ### The step -/

theorem SoundFrame.withSeq_sameOperands {s t : State} (h : SoundFrame s t) (q : Seq) : SameOperands s (t.withSeq q) :=
  ⟨h.start, h.stop, h.ctrl⟩

theorem tickResp_sameOperands (s : State) : SameOperands s (tickResp s) := by
  unfold tickResp; split <;> exact ⟨rfl, rfl, rfl⟩

theorem tickEmit_sameOperands (s : State) : SameOperands s (tickEmit s) := by
  unfold tickEmit; split <;> exact ⟨rfl, rfl, rfl⟩

/-- A step that is no reset leaves the operand registers, or accepts the word of a command that can change one. -/
theorem step_operands {s t : State} (h : step s = .next t) (hrst : s.rst = false) :
    SameOperands s t ∨ s.seq.st = .idle ∧ ∃ w i, s.cmds.head? = some w ∧ decode w = .command i ∧
      (i = .reset ∨ ∃ reg imm, i = .wrl reg imm ∧ (reg.toNat = 0x00 ∨ 0x10 ≤ reg.toNat ∧ reg.toNat ≤ 0x17)) := by
  obtain ⟨hr, -⟩ | ⟨-, -, -, rfl⟩ | ⟨-, hst, w, ws, hw, ⟨i, hi, rfl⟩ | ⟨k, -, rfl⟩⟩ | ⟨-, -, rfl⟩ | ⟨-, -, rfl⟩ |
    ⟨-, -, rfl⟩ | ⟨-, -, rfl⟩ := step_cases h
  case inl => rw [hrst] at hr; contradiction
  case inr.inl => exact .inl ⟨rfl, rfl, rfl⟩
  case inr.inr.inl.inl =>
    obtain ⟨hstart, hstop, hctrl⟩ | hwrites := result_operands i (s.withCmds ws)
    · exact .inl ⟨hstart, hstop, hctrl⟩
    · exact .inr ⟨hst, w, i, by rw [hw]; rfl, hi, hwrites⟩
  case inr.inr.inl.inr =>
    obtain ⟨hstart, hstop, hctrl⟩ := raiseIll_sameOperands k w (s.withCmds ws)
    exact .inl ⟨hstart, hstop, hctrl⟩
  · exact .inl (tickResp_sameOperands s)
  · exact .inl ((beginSlice_soundFrame ..).withSeq_sameOperands _)
  · exact .inl ((renderState_soundFrame ..).withSeq_sameOperands _)
  · exact .inl (tickEmit_sameOperands s)

/-- Settles O59: the two commands that can change an operand register have the words the statement names. -/
theorem operandRegistersAreWrittenByTheHostAlone : Obligations.OperandRegistersAreWrittenByTheHostAlone := by
  intro s t hstep hrst hchanged
  obtain ⟨hstart, hstop, hctrl⟩ | ⟨hst, w, i, hw, hi, hwrites⟩ := step_operands hstep hrst
  · obtain h | h | h := hchanged
    · exact absurd hstart h
    · exact absurd hstop h
    · exact absurd hctrl h
  · refine ⟨hst, ?_⟩
    obtain rfl | ⟨reg, imm, rfl, hnum⟩ := hwrites
    · exact .inl (word_of_decode_reset hi ▸ hw)
    · exact .inr ⟨reg, imm, word_of_decode_wrl hi ▸ hw, hnum⟩

end Sys2Proof.Machine

/-! PROOF. The state after reset (10_state.md R33). -/

namespace Sys2Proof.Machine

open Sys2Proof Sys2Proof.Spec

/-- `SLICE_LEN` is supplied from the configuration in every state (10_state.md R30). -/
theorem regValue_sliceLen (s : State) : regValue s 0x02 = some Config.cfg.sliceLen := by
  rw [regValue, if_neg (by decide), if_neg (by decide), if_neg (by decide), if_pos rfl]

/-- Settles O44: each register file of the state after reset is one value throughout. -/
theorem resetStateIsTheSpecs : Obligations.ResetStateIsTheSpecs := by
  refine ⟨fun j => ?_, fun k => ?_, fun ch => ⟨?_, ?_, ?_⟩, rfl, rfl, rfl, rfl, rfl, regValue_sliceLen _⟩
  · exact Vec7.get_ofFn _ j
  · exact Vec3.get_ofFn _ k
  all_goals exact Vec4.get_ofFn _ ch

end Sys2Proof.Machine

/-! PROOF. The words of the command channel (20_memory.md R65): no command and no transition touches an input, so the only
word a step takes is the one it accepts in IDLE. -/

namespace Sys2Proof.Machine

open Sys2Proof

theorem renderCommand_sameInputs (c : Cfg) (op : SeqOp) (k : Kind) (n : Half) (s : State) :
    SameInputs s (renderCommand c op k n s) := by
  unfold renderCommand
  split
  · exact .refl s
  split
  · exact samples_sameInputs ..
  · exact ⟨rfl, rfl, rfl, rfl⟩

theorem playCommand_sameInputs (c : Cfg) (src : Source) (n : Half) (s : State) :
    SameInputs s (playCommand c src n s) := by
  unfold playCommand
  split
  · exact .refl s
  split
  · exact play_sameInputs ..
  · exact startPlay_sameInputs ..

theorem result_sameInputs (i : Instr) (s : State) : SameInputs s (result i s) := by
  cases i with
  | nop => exact .refl s
  | wrl reg imm => exact (sinkBlind_wrl _ reg imm).inputs s
  | wrh reg imm => exact (sinkBlind_wrh reg imm).inputs s
  | rd reg => exact (sinkBlind_rd _ reg).inputs s
  | play src n => exact playCommand_sameInputs _ src n s
  | cenv src => exact cenv_sameInputs _ src s
  | rform n => exact renderCommand_sameInputs _ _ _ n s
  | rfric n => exact renderCommand_sameInputs _ _ _ n s
  | rsil n => exact renderCommand_sameInputs _ _ _ n s
  | reset => exact sinkBlind_resetBlock.inputs s

/-- Settles O47: an accepted word is off the channel before its command or its refusal runs, and neither of the two, nor
any other kind of step, touches the channel. -/
theorem wordsAreTakenInOrder : Obligations.WordsAreTakenInOrder := by
  intro s t hstep
  obtain ⟨hrst, rfl⟩ | ⟨hrst, hst, hcmds, rfl⟩ | ⟨hrst, hst, w, ws, hcmds, ⟨i, -, rfl⟩ | ⟨k, -, rfl⟩⟩ |
    ⟨hrst, hst, rfl⟩ | ⟨hrst, hst, rfl⟩ | ⟨hrst, hst, rfl⟩ | ⟨hrst, hst, rfl⟩ := step_cases hstep
  case inl => simp [hrst, hardReset, resetBlock_eq]
  case inr.inl => simp [hrst, hst, hcmds]
  case inr.inr.inl.inl => simp [hrst, hst, hcmds, (result_sameInputs i (s.withCmds ws)).cmds]
  case inr.inr.inl.inr => simp [hrst, hst, hcmds, ((sinkBlind_raiseIll k w).inputs (s.withCmds ws)).cmds]
  · simp [hrst, hst, (tickResp_sameInputs s).cmds]
  · simp [hrst, hst, (tickSlice_sameInputs Config.cfg s).cmds]
  · simp [hrst, hst, (tickRender_sameInputs Config.cfg s).cmds]
  · simp [hrst, hst, (tickEmit_sameInputs s).cmds]

theorem tickIdle_cons {s : State} {w : Word} {ws : List Word} (h : s.cmds = w :: ws) :
    tickIdle s = acceptWord w (s.withCmds ws) := by
  rw [tickIdle, h]

/-- Settles O46: in IDLE the step accepts the first word, and an accepted word that decodes is executed. -/
theorem stepRunsTheDecodedCommand : Obligations.StepRunsTheDecodedCommand := by
  intro s w ws i hrst hst hcmds hdecode
  calc step s = tickIdle s := step_idle hrst hst
    _ = acceptWord w (s.withCmds ws) := tickIdle_cons hcmds
    _ = .next (result i (s.withCmds ws)) := acceptWord_command hdecode _
    _ = exec i { s with cmds := ws } := (exec_eq i _).symm

end Sys2Proof.Machine

/-! PROOF. The sample and the response channel only grow (20_memory.md R66, R67). The block's own work hands over samples
and no response; a host access hands over at most one response and no sample. -/

namespace Sys2Proof.Machine

open Sys2Proof

/-- From `s` to `t` samples were handed over behind the earlier ones, and no response. -/
structure OnlySamples (s t : State) : Prop where
  samples : s.samples <+: t.samples
  responses : t.responses = s.responses

/-- From `s` to `t` at most one response was handed over behind the earlier ones, and no sample. -/
structure OnlyResponse (s t : State) : Prop where
  samples : t.samples = s.samples
  responses : t.responses = s.responses ∨ ∃ v, t.responses = s.responses ++ [v]

/-- Both channels of `t` begin with those of `s`, and at most one response is new. -/
structure ChannelsGrew (s t : State) : Prop where
  samples : ∃ out, t.samples = s.samples ++ out
  responses : ∃ out, t.responses = s.responses ++ out ∧ out.length ≤ 1

theorem OnlySamples.of_eq {s t : State} (hsamples : t.samples = s.samples) (hresponses : t.responses = s.responses) :
    OnlySamples s t :=
  ⟨⟨[], by rw [hsamples, List.append_nil]⟩, hresponses⟩

theorem OnlySamples.refl (s : State) : OnlySamples s s := .of_eq rfl rfl

theorem OnlySamples.trans {s t u : State} (h : OnlySamples s t) (h' : OnlySamples t u) : OnlySamples s u :=
  ⟨h.samples.trans h'.samples, h'.responses.trans h.responses⟩

theorem OnlySamples.grew {s t : State} (h : OnlySamples s t) : ChannelsGrew s t where
  samples := h.samples.imp fun _ hout => hout.symm
  responses := ⟨[], by rw [h.responses, List.append_nil], Nat.zero_le 1⟩

theorem OnlyResponse.of_eq {s t : State} (hsamples : t.samples = s.samples) (hresponses : t.responses = s.responses) :
    OnlyResponse s t := ⟨hsamples, .inl hresponses⟩

theorem OnlyResponse.after_eq {s t u : State} (h : OnlyResponse t u) (hsamples : t.samples = s.samples)
    (hresponses : t.responses = s.responses) : OnlyResponse s u :=
  ⟨h.samples.trans hsamples, hresponses ▸ h.responses⟩

theorem OnlyResponse.grew {s t : State} (h : OnlyResponse s t) : ChannelsGrew s t := by
  obtain ⟨hsamples, hnone | ⟨v, hone⟩⟩ := h
  · exact (OnlySamples.of_eq hsamples hnone).grew
  · exact ⟨⟨[], by rw [hsamples, List.append_nil]⟩, [v], hone, Nat.le_refl 1⟩

/-! ### The block's own work -/

theorem emit_onlySamples (x : Byte) (s : State) : OnlySamples s (emit x s) := ⟨⟨[x], rfl⟩, rfl⟩

theorem renderState_onlySamples (c : Cfg) (k : Kind) (s : State) : OnlySamples s (renderState c k s) := by
  rw [renderState_eq]; exact .of_eq rfl rfl

theorem sample_onlySamples (c : Cfg) (k : Kind) (s : State) : OnlySamples s (sample c k s) :=
  (renderState_onlySamples c k s).trans (emit_onlySamples ..)

theorem samples_onlySamples (c : Cfg) (k : Kind) (n : Nat) (s : State) : OnlySamples s (samples c k n s) :=
  samples_induct (P := OnlySamples s) (fun t h => h.trans (sample_onlySamples c k t)) n (.refl s)

theorem cenv_onlySamples (c : Cfg) (src : Source) (s : State) : OnlySamples s (cenv c src s) := by
  rw [cenv_frame]; exact .of_eq rfl rfl

theorem beginSlice_onlySamples (c : Cfg) (g : Segment) (i : Nat) (s : State) : OnlySamples s (beginSlice c g i s) :=
  have h : OnlySamples s (s.withCur (sliceFreqs g i)) := .of_eq rfl rfl
  h.trans (cenv_onlySamples c g.src _)

theorem playSlice_onlySamples (c : Cfg) (g : Segment) (i : Nat) (s : State) : OnlySamples s (playSlice c g i s) :=
  (beginSlice_onlySamples c g i s).trans (samples_onlySamples ..)

theorem play_onlySamples (c : Cfg) (src : Source) (n : Half) (s : State) : OnlySamples s (play c src n s) := by
  by_cases hsrc : src = .silence
  · subst hsrc; rw [play_silence]; exact samples_onlySamples ..
  · rw [play_sound hsrc]
    exact playSlices_induct (P := OnlySamples s) (fun i t h => h.trans (playSlice_onlySamples c _ i t)) _ _ (.refl s)

theorem renderCommand_onlySamples (c : Cfg) (op : SeqOp) (k : Kind) (n : Half) (s : State) :
    OnlySamples s (renderCommand c op k n s) := by
  unfold renderCommand
  split
  · exact .refl s
  split
  · exact samples_onlySamples ..
  · exact .of_eq rfl rfl

theorem playCommand_onlySamples (c : Cfg) (src : Source) (n : Half) (s : State) :
    OnlySamples s (playCommand c src n s) := by
  unfold playCommand
  split
  · exact .refl s
  split
  · exact play_onlySamples ..
  · unfold startPlay; split <;> exact .of_eq rfl rfl

/-! ### Host access -/

theorem respond_onlyResponse (v : Word) (s : State) : OnlyResponse s (respond v s) := by
  cases h : s.rspReady
  · rw [respond_busy h]; exact .of_eq rfl rfl
  · rw [respond_ready h]; exact ⟨rfl, .inr ⟨v, rfl⟩⟩

/-- A refusal is recorded first, which touches neither channel. -/
theorem raiseIll_onlyResponse (k : Cause) (w : Word) (s : State) : OnlyResponse s (raiseIll k w s) := by
  have hsamples : (recordIll k w s).samples = s.samples := by rw [recordIll_frame]; rfl
  have hresponses : (recordIll k w s).responses = s.responses := by rw [recordIll_frame]; rfl
  by_cases hop : opcodeOf w = 0x3#4
  · rw [raiseIll_rd hop]; exact (respond_onlyResponse ..).after_eq hsamples hresponses
  · rw [raiseIll_other hop]; exact .of_eq hsamples hresponses

theorem writeLow_onlyResponse (r : Reg) (imm : Half) (s : State) : OnlyResponse s (writeLow r imm s) := by
  cases r
  case status => rw [writeLow, clearStatus_eq]; exact .of_eq rfl rfl
  all_goals exact .of_eq rfl rfl

theorem wrl_onlyResponse (c : Cfg) (reg : BitVec 8) (imm : Half) (s : State) : OnlyResponse s (wrl c reg imm s) := by
  obtain ⟨k, hk⟩ | ⟨r, -, -, hr⟩ := wrl_cases c reg imm
  · rw [hk]; exact raiseIll_onlyResponse ..
  · rw [hr]; exact writeLow_onlyResponse ..

theorem wrh_onlyResponse (reg : BitVec 8) (imm : Half) (s : State) : OnlyResponse s (wrh reg imm s) := by
  obtain ⟨k, hk⟩ | ⟨r, hr⟩ := wrh_cases reg imm
  · rw [hk]; exact raiseIll_onlyResponse ..
  · rw [hr]; cases r <;> exact .of_eq rfl rfl

theorem rd_onlyResponse (c : Cfg) (reg : BitVec 8) (s : State) : OnlyResponse s (rd c reg s) := by
  obtain hk | ⟨r, -, hr⟩ := rd_cases c reg
  · rw [hk]; exact raiseIll_onlyResponse ..
  · rw [hr]; exact respond_onlyResponse ..

/-! ### The resets -/

theorem resetBlock_onlySamples (s : State) : OnlySamples s (resetBlock s) := .of_eq rfl rfl

theorem hardReset_onlySamples (s : State) : OnlySamples s (hardReset s) :=
  (resetBlock_onlySamples s).trans (.of_eq rfl rfl)

/-! ### The step -/

theorem result_grew (i : Instr) (s : State) : ChannelsGrew s (result i s) := by
  cases i with
  | nop => exact (OnlySamples.refl s).grew
  | wrl reg imm => exact (wrl_onlyResponse _ reg imm s).grew
  | wrh reg imm => exact (wrh_onlyResponse reg imm s).grew
  | rd reg => exact (rd_onlyResponse _ reg s).grew
  | play src n => exact (playCommand_onlySamples _ src n s).grew
  | cenv src => exact (cenv_onlySamples _ src s).grew
  | rform n => exact (renderCommand_onlySamples _ _ _ n s).grew
  | rfric n => exact (renderCommand_onlySamples _ _ _ n s).grew
  | rsil n => exact (renderCommand_onlySamples _ _ _ n s).grew
  | reset => exact (resetBlock_onlySamples s).grew

theorem tickResp_onlyResponse (s : State) : OnlyResponse s (tickResp s) := by
  unfold tickResp
  split
  · exact ⟨rfl, .inr ⟨s.seq.rsp, rfl⟩⟩
  · exact .of_eq rfl rfl

theorem tickSlice_onlySamples (c : Cfg) (s : State) : OnlySamples s (tickSlice c s) :=
  (beginSlice_onlySamples c (seqSegment s.seq) s.seq.i.toNat s).trans (.of_eq rfl rfl)

theorem tickRender_onlySamples (c : Cfg) (s : State) : OnlySamples s (tickRender c s) :=
  (renderState_onlySamples c (seqKind s.seq) s).trans (.of_eq rfl rfl)

theorem tickEmit_onlySamples (s : State) : OnlySamples s (tickEmit s) := by
  unfold tickEmit
  split
  · have h : OnlySamples s (s.withSeq (afterAccept s.seq)) := .of_eq rfl rfl
    exact h.trans (emit_onlySamples s.seq.out _)
  · exact .refl s

theorem step_grew {s t : State} (h : step s = .next t) : ChannelsGrew s t := by
  obtain ⟨-, rfl⟩ | ⟨-, -, -, rfl⟩ | ⟨-, -, w, ws, -, ⟨i, -, rfl⟩ | ⟨k, -, rfl⟩⟩ | ⟨-, -, rfl⟩ | ⟨-, -, rfl⟩ |
    ⟨-, -, rfl⟩ | ⟨-, -, rfl⟩ := step_cases h
  case inl => exact (hardReset_onlySamples s).grew
  case inr.inl => exact (OnlySamples.refl _).grew
  case inr.inr.inl.inl =>
    obtain ⟨hsamples, hresponses⟩ := result_grew i (s.withCmds ws)
    exact ⟨hsamples, hresponses⟩
  case inr.inr.inl.inr =>
    obtain ⟨hsamples, hresponses⟩ := (raiseIll_onlyResponse k w (s.withCmds ws)).grew
    exact ⟨hsamples, hresponses⟩
  · exact (tickResp_onlyResponse s).grew
  · exact (tickSlice_onlySamples _ s).grew
  · exact (tickRender_onlySamples _ s).grew
  · exact (tickEmit_onlySamples s).grew

/-- Settles O57: every step makes the channels grow. -/
theorem channelsOnlyGrow : Obligations.ChannelsOnlyGrow := by
  intro s t hstep
  obtain ⟨hsamples, hresponses⟩ := step_grew hstep
  exact ⟨hsamples, hresponses⟩

end Sys2Proof.Machine

/-! PROOF. The register map (20_memory.md R61): the reserved numbers, and the numbers of the registers. -/

namespace Sys2Proof.Machine

open Sys2Proof Sys2Proof.Spec

/-- Of the four numbers of an oscillator the last is reserved (20_memory.md R61). -/
theorem oscReg_eq_none_iff {j : Fin 7} {m : Nat} : oscReg j m = none ↔ 3 ≤ m := by
  match m with
  | 0 | 1 | 2 => exact iff_of_false nofun (by omega)
  | m + 3 => exact iff_of_true rfl (by omega)

/-- The numbers that name no register are those outside all of the map's ranges, and every fourth one of the oscillators'
(20_memory.md R61). -/
theorem regOf_eq_none_iff (n : BitVec 8) : regOf n = none ↔ Reserved n.toNat := by
  simp only [regOf, ite_eq_iff, dite_eq_iff, oscReg_eq_none_iff, reduceCtorEq, and_false, exists_false, or_self,
    false_or, exists_prop, and_true, Reserved]
  constructor
  · intro hunnamed; omega
  · intro hreserved; omega

theorem regOf_regNumber (r : Reg) : regOf (regNumber r) = some r := by
  cases r with
  | ctrl | status | sliceLen | badcmd => rfl
  | start ch | stop ch | cur ch => revert ch; decide
  | oscFreq j | oscPhase j | oscWave j => revert j; decide
  | foscFreq k | foscPhase k => revert k; decide

/-- A number below 256 is the value of its byte. -/
theorem toNat_ofNat_byte {n : Nat} (h : n < 256) : (BitVec.ofNat 8 n).toNat = n := by
  rw [BitVec.toNat_ofNat, Nat.mod_eq_of_lt h]

/-- Settles O5: the map read in both directions, and each number as the map lists it. -/
theorem registerMapIsTheSpecs : Obligations.RegisterMapIsTheSpecs := by
  refine ⟨regOf_eq_none_iff, regOf_regNumber, fun _ _ => regNumber_of_regOf, rfl, rfl, rfl, rfl, fun ch => ?_,
    fun j => ?_, fun k => ?_⟩
  · exact ⟨toNat_ofNat_byte (by omega), toNat_ofNat_byte (by omega), toNat_ofNat_byte (by omega)⟩
  · exact ⟨toNat_ofNat_byte (by omega), toNat_ofNat_byte (by omega), toNat_ofNat_byte (by omega)⟩
  · exact ⟨toNat_ofNat_byte (by omega), toNat_ofNat_byte (by omega)⟩

end Sys2Proof.Machine

/-! PROOF. The two table indices (20_memory.md R69; 40_phase_and_wavetable.md R122, R123): each is the top bits of a phase,
as many as its table's size has. -/

namespace Sys2Proof.Machine

open Sys2Proof

/-- The top `b` bits of a word are a number below 2^b. -/
theorem topBits_lt {w b : Nat} (hb : b ≤ w) (p : BitVec w) : p.toNat / 2 ^ (w - b) < 2 ^ b := by
  have hp : p.toNat < 2 ^ (w - b) * 2 ^ b := by
    rw [← Nat.pow_add, Nat.sub_add_cancel hb]; exact p.isLt
  exact Nat.div_lt_of_lt_mul hp

theorem buzzIndex_lt (c : Cfg) (p : Half) : buzzIndex c p < 2 ^ c.buzzBits := Nat.mod_lt _ (Nat.two_pow_pos _)

theorem noiseIndex_eq (c : Cfg) (p : Word) : noiseIndex c p = p.toNat / 2 ^ (32 - c.fricBits) :=
  Nat.shiftRight_eq_div_pow ..

theorem noiseIndex_lt {c : Cfg} (hc : c.Valid) (p : Word) : noiseIndex c p < 2 ^ c.fricBits := by
  rw [noiseIndex_eq]
  exact topBits_lt (hc.fricBits_le.trans (by decide)) p

/-- At the decided shift the reduction to the table's size takes nothing away. -/
theorem buzzIndex_eq {c : Cfg} (hc : c.Valid) (hshift : c.buzzShift = 16 - c.buzzBits) (p : Half) :
    buzzIndex c p = p.toNat / 2 ^ (16 - c.buzzBits) := by
  have hlt := topBits_lt (hc.buzzBits_le.trans (by decide)) p
  rw [buzzIndex, hshift, Nat.shiftRight_eq_div_pow, Nat.mod_eq_of_lt hlt]

/-- Settles O11: the machine's configuration is valid, whatever it is. -/
theorem tableIndicesStayInside : Obligations.TableIndicesStayInside :=
  ⟨buzzIndex_lt _, noiseIndex_lt Config.cfg_valid, fun _ => buzzIndex_eq, noiseIndex_eq _⟩

end Sys2Proof.Machine

/-! PROOF. The encoding (30_encoding.md R90 to R92). A word is its fields side by side, so it is a word of a format when
its must-be-zero field holds 0. Hence `decode w` is a command just when `w` is that command's word, and a mask, which is
itself four fields side by side, keeps of a word just the fields its row fixes. -/

namespace Sys2Proof.Machine

open Sys2Proof

/-! ### A word and its fields -/

theorem append_inj {m n : Nat} {a a' : BitVec m} {b b' : BitVec n} : a ++ b = a' ++ b' ↔ a = a' ∧ b = b' := by
  constructor
  · intro h
    have hleft := congrArg (BitVec.extractLsb' n m) h
    have hright := congrArg (BitVec.extractLsb' 0 n) h
    rw [BitVec.extractLsb'_append_eq_left, BitVec.extractLsb'_append_eq_left] at hleft
    rw [BitVec.extractLsb'_append_eq_right, BitVec.extractLsb'_append_eq_right] at hright
    exact ⟨hleft, hright⟩
  · rintro ⟨rfl, rfl⟩; rfl

theorem append_eq_zero_iff {m n : Nat} {a : BitVec m} {b : BitVec n} : a ++ b = 0#(m + n) ↔ a = 0#m ∧ b = 0#n := by
  rw [← BitVec.zero_append_zero, append_inj]

/-- The fields of format Z, side by side (30_encoding.md R91). -/
theorem fieldsZ (w : Word) : opcodeOf w ++ w.extractLsb' 0 28 = w := BitVec.extractLsb'_append_extractLsb'

/-- The fields of format R, side by side (30_encoding.md R91). -/
theorem fieldsR (w : Word) : opcodeOf w ++ regField w ++ w.extractLsb' 16 4 ++ lowField w = w := by
  rw [opcodeOf, regField, lowField, BitVec.extractLsb'_append_extractLsb'_eq_extractLsb' (start₂ := 28) rfl,
    BitVec.extractLsb'_append_extractLsb'_eq_extractLsb' (start₂ := 20) rfl]
  exact BitVec.extractLsb'_append_extractLsb'

/-- The fields of format C, side by side (30_encoding.md R91). -/
theorem fieldsC (w : Word) : opcodeOf w ++ w.extractLsb' 18 10 ++ srcField w ++ lowField w = w := by
  rw [opcodeOf, srcField, lowField, BitVec.extractLsb'_append_extractLsb'_eq_extractLsb' (start₂ := 28) rfl,
    BitVec.extractLsb'_append_extractLsb'_eq_extractLsb' (start₂ := 18) rfl]
  exact BitVec.extractLsb'_append_extractLsb'

/-- The must-be-zero field of `RD` is that of format R and `imm16`. -/
theorem rdZero_eq_zero_iff (w : Word) : w.extractLsb' 0 20 = 0#20 ↔ w.extractLsb' 16 4 = 0#4 ∧ lowField w = 0#16 := by
  rw [← append_eq_zero_iff, lowField, BitVec.extractLsb'_append_extractLsb'_eq_extractLsb' (start₂ := 16) rfl]

/-- The must-be-zero field of a renderer command is that of format C and `src`. -/
theorem renderZero_eq_zero_iff (w : Word) :
    w.extractLsb' 16 12 = 0#12 ↔ w.extractLsb' 18 10 = 0#10 ∧ srcField w = 0#2 := by
  rw [← append_eq_zero_iff, srcField, BitVec.extractLsb'_append_extractLsb'_eq_extractLsb' (start₂ := 18) rfl]

/-! ### The words of a format -/

section
variable {op : BitVec 4} {reg : BitVec 8} {src : BitVec 2} {imm : Half} {w : Word}

theorem formatZ_eq_iff : formatZ op = w ↔ opcodeOf w = op ∧ w.extractLsb' 0 28 = 0#28 := by
  conv_lhs => rw [← fieldsZ w, formatZ, append_inj]
  simp only [eq_comm]

theorem formatR_eq_iff :
    formatR op reg imm = w ↔ opcodeOf w = op ∧ regField w = reg ∧ w.extractLsb' 16 4 = 0#4 ∧ lowField w = imm := by
  conv_lhs => rw [← fieldsR w, formatR, append_inj, append_inj, append_inj, and_assoc, and_assoc]
  simp only [eq_comm]

theorem formatC_eq_iff :
    formatC op src imm = w ↔ opcodeOf w = op ∧ w.extractLsb' 18 10 = 0#10 ∧ srcField w = src ∧ lowField w = imm := by
  conv_lhs => rw [← fieldsC w, formatC, append_inj, append_inj, append_inj, and_assoc, and_assoc]
  simp only [eq_comm]

end

/-! ### The encoder and the decoder -/

theorem opcodeOf_encode (i : Instr) : opcodeOf (encode i) = opcodeBits i := by
  cases i with
  | nop => exact Laws.EncodedOpcode.nop
  | wrl reg imm => exact Laws.EncodedOpcode.wrl reg imm
  | wrh reg imm => exact Laws.EncodedOpcode.wrh reg imm
  | rd reg => exact Laws.EncodedOpcode.rd reg
  | play src n => exact Laws.EncodedOpcode.play src n
  | cenv src => exact Laws.EncodedOpcode.cenv src
  | rform n => exact Laws.EncodedOpcode.rform n
  | rfric n => exact Laws.EncodedOpcode.rfric n
  | rsil n => exact Laws.EncodedOpcode.rsil n
  | reset => exact Laws.EncodedOpcode.reset

theorem withZero_eq_command {n : Nat} {zero : BitVec n} {i k : Instr} (hzero : zero = 0#n) (hi : i = k) :
    withZero zero i = .command k := by
  rw [withZero_pos hzero, hi]

theorem sourceOf_srcField_formatC (op : BitVec 4) (x : Source) (imm : Half) :
    sourceOf (srcField (formatC op (sourceBits x) imm)) = x := by
  rw [srcField_formatC, sourceOf_sourceBits]

/-- Settles O1: the opcode of the command's word selects the command's row of the decoder, whose must-be-zero field the
encoder filled with 0 and whose operand fields hold the operands. -/
theorem decodeOfEncodeIsTheCommand : Obligations.DecodeOfEncodeIsTheCommand := by
  intro i
  rw [decode, opcodeOf_encode]
  cases i with
  | nop => exact withZero_eq_command rfl rfl
  | wrl reg imm =>
    exact withZero_eq_command (zero_formatR ..) (congrArg₂ Instr.wrl (regField_formatR ..) (lowField_formatR ..))
  | wrh reg imm =>
    exact withZero_eq_command (zero_formatR ..) (congrArg₂ Instr.wrh (regField_formatR ..) (lowField_formatR ..))
  | rd reg => exact withZero_eq_command (zero_formatR_rd ..) (congrArg Instr.rd (regField_formatR ..))
  | play x n =>
    exact withZero_eq_command (zero_formatC ..)
      (congrArg₂ Instr.play (sourceOf_srcField_formatC ..) (lowField_formatC ..))
  | cenv x =>
    exact withZero_eq_command (append_eq_zero_iff.mpr ⟨zero_formatC .., lowField_formatC ..⟩)
      (congrArg Instr.cenv (sourceOf_srcField_formatC ..))
  | rform n => exact withZero_eq_command (zero_formatC_render ..) (congrArg Instr.rform (lowField_formatC ..))
  | rfric n => exact withZero_eq_command (zero_formatC_render ..) (congrArg Instr.rfric (lowField_formatC ..))
  | rsil n => exact withZero_eq_command (zero_formatC_render ..) (congrArg Instr.rsil (lowField_formatC ..))
  | reset => exact withZero_eq_command rfl rfl

theorem formatC_of_renderZero {op : BitVec 4} {w : Word} (hop : opcodeOf w = op) (hzero : w.extractLsb' 16 12 = 0#12) :
    formatC op 0#2 (lowField w) = w := by
  obtain ⟨hzero, hsrc⟩ := (renderZero_eq_zero_iff w).mp hzero
  exact formatC_eq_iff.mpr ⟨hop, hzero, hsrc, rfl⟩

/-- Settles O2: each row of the decoder reads off the fields from which the encoder builds the word again. -/
theorem commandHasOneWord : Obligations.CommandHasOneWord := by
  intro w i h
  unfold decode at h
  split at h
  case h_11 => contradiction
  all_goals
    rename_i hop
    obtain ⟨hzero, rfl⟩ := withZero_command h
  case h_1 | h_10 => exact formatZ_eq_iff.mpr ⟨hop, hzero⟩
  case h_2 | h_3 => exact formatR_eq_iff.mpr ⟨hop, rfl, hzero, rfl⟩
  case h_4 =>
    obtain ⟨hzero, himm⟩ := (rdZero_eq_zero_iff w).mp hzero
    exact formatR_eq_iff.mpr ⟨hop, rfl, hzero, himm⟩
  case h_5 => exact formatC_eq_iff.mpr ⟨hop, hzero, (sourceBits_sourceOf _).symm, rfl⟩
  case h_6 =>
    obtain ⟨hzero, hcount⟩ := append_eq_zero_iff.mp hzero
    exact formatC_eq_iff.mpr ⟨hop, hzero, (sourceBits_sourceOf _).symm, hcount⟩
  case h_7 | h_8 | h_9 => exact formatC_of_renderZero hop hzero

/-- A word is a command just when it is the command's word: the two directions of the round trip. -/
theorem decode_eq_command_iff {w : Word} {i : Instr} : decode w = .command i ↔ encode i = w := by
  constructor
  · exact commandHasOneWord w i
  · rintro rfl; exact decodeOfEncodeIsTheCommand i

/-! ### The match and mask rows -/

section
variable (op : BitVec 4) (w : Word)

/-- What a mask that keeps the opcode and the must-be-zero field of format R says of the four fields. -/
theorem and_maskR_eq_iff (mreg : BitVec 8) (mimm : Half) :
    w &&& (BitVec.allOnes 4 ++ mreg ++ BitVec.allOnes 4 ++ mimm) = formatR op 0#8 0#16 ↔
      opcodeOf w = op ∧ regField w &&& mreg = 0#8 ∧ w.extractLsb' 16 4 = 0#4 ∧ lowField w &&& mimm = 0#16 := by
  conv_lhs => rw [← fieldsR w, BitVec.and_append, BitVec.and_append, BitVec.and_append, formatR]
  rw [append_inj, append_inj, append_inj, and_assoc, and_assoc, BitVec.and_allOnes, BitVec.and_allOnes]

/-- What a mask that keeps the opcode and the must-be-zero field of format C says of the four fields. -/
theorem and_maskC_eq_iff (msrc : BitVec 2) (mcount : Half) :
    w &&& (BitVec.allOnes 4 ++ BitVec.allOnes 10 ++ msrc ++ mcount) = formatC op 0#2 0#16 ↔
      opcodeOf w = op ∧ w.extractLsb' 18 10 = 0#10 ∧ srcField w &&& msrc = 0#2 ∧ lowField w &&& mcount = 0#16 := by
  conv_lhs => rw [← fieldsC w, BitVec.and_append, BitVec.and_append, BitVec.and_append, formatC]
  rw [append_inj, append_inj, append_inj, and_assoc, and_assoc, BitVec.and_allOnes, BitVec.and_allOnes]

/-- The mask of `NOP` and `RESET`. -/
theorem formatZ_iff_mask : formatZ op = w ↔ w &&& 0xFFFFFFFF#32 = formatZ op := by
  rw [show 0xFFFFFFFF#32 = BitVec.allOnes 32 from rfl, BitVec.and_allOnes, eq_comm]

/-- The mask of `WRL` and `WRH`. -/
theorem exists_formatR_iff_mask :
    (∃ reg imm, formatR op reg imm = w) ↔ w &&& 0xF00F0000#32 = formatR op 0#8 0#16 := by
  have hmask := and_maskR_eq_iff op w 0#8 0#16
  rw [BitVec.and_zero, BitVec.and_zero] at hmask
  rw [show 0xF00F0000#32 = BitVec.allOnes 4 ++ 0#8 ++ BitVec.allOnes 4 ++ 0#16 from rfl, hmask]
  simp [formatR_eq_iff]

/-- The mask of `RD`. -/
theorem exists_formatR_zero_iff_mask :
    (∃ reg, formatR op reg 0#16 = w) ↔ w &&& 0xF00FFFFF#32 = formatR op 0#8 0#16 := by
  have hmask := and_maskR_eq_iff op w 0#8 (BitVec.allOnes 16)
  rw [BitVec.and_zero, BitVec.and_allOnes] at hmask
  rw [show 0xF00FFFFF#32 = BitVec.allOnes 4 ++ 0#8 ++ BitVec.allOnes 4 ++ BitVec.allOnes 16 from rfl, hmask]
  simp [formatR_eq_iff]

/-- Every value of the 2-bit field is the number of a source (30_encoding.md R96). -/
theorem exists_sourceBits_eq (b : BitVec 2) : ∃ x, b = sourceBits x := ⟨sourceOf b, (sourceBits_sourceOf b).symm⟩

/-- The mask of `PLAY`. -/
theorem exists_formatC_iff_mask :
    (∃ x n, formatC op (sourceBits x) n = w) ↔ w &&& 0xFFFC0000#32 = formatC op 0#2 0#16 := by
  have hmask := and_maskC_eq_iff op w 0#2 0#16
  rw [BitVec.and_zero, BitVec.and_zero] at hmask
  rw [show 0xFFFC0000#32 = BitVec.allOnes 4 ++ BitVec.allOnes 10 ++ 0#2 ++ 0#16 from rfl, hmask]
  simp [formatC_eq_iff, exists_sourceBits_eq]

/-- The mask of `CENV`. -/
theorem exists_formatC_zero_iff_mask :
    (∃ x, formatC op (sourceBits x) 0#16 = w) ↔ w &&& 0xFFFCFFFF#32 = formatC op 0#2 0#16 := by
  have hmask := and_maskC_eq_iff op w 0#2 (BitVec.allOnes 16)
  rw [BitVec.and_zero, BitVec.and_allOnes] at hmask
  rw [show 0xFFFCFFFF#32 = BitVec.allOnes 4 ++ BitVec.allOnes 10 ++ 0#2 ++ BitVec.allOnes 16 from rfl, hmask]
  simp [formatC_eq_iff, exists_sourceBits_eq]

/-- The mask of `RFORM`, `RFRIC` and `RSIL`. -/
theorem exists_formatC_render_iff_mask :
    (∃ n, formatC op 0#2 n = w) ↔ w &&& 0xFFFF0000#32 = formatC op 0#2 0#16 := by
  have hmask := and_maskC_eq_iff op w (BitVec.allOnes 2) 0#16
  rw [BitVec.and_allOnes, BitVec.and_zero] at hmask
  rw [show 0xFFFF0000#32 = BitVec.allOnes 4 ++ BitVec.allOnes 10 ++ BitVec.allOnes 2 ++ 0#16 from rfl, hmask]
  simp [formatC_eq_iff]

end

/-- Settles O3: a word is a command just when it is the command's word, and a row's mask tells the words of its format
and opcode from all others. -/
theorem matchMaskRowsDecideDecoding : Obligations.MatchMaskRowsDecideDecoding := by
  intro w
  simp only [decode_eq_command_iff]
  refine ⟨formatZ_iff_mask 0x0#4 w, exists_formatR_iff_mask 0x1#4 w, exists_formatR_iff_mask 0x2#4 w,
    exists_formatR_zero_iff_mask 0x3#4 w, exists_formatC_iff_mask 0x4#4 w, exists_formatC_zero_iff_mask 0x5#4 w,
    exists_formatC_render_iff_mask 0x6#4 w, exists_formatC_render_iff_mask 0x7#4 w,
    exists_formatC_render_iff_mask 0x8#4 w, formatZ_iff_mask 0xF#4 w, ?_⟩
  cases hw : decode w with
  | command i => exact .inl ⟨i, decode_eq_command_iff.mp hw⟩
  | illegal k => exact .inr ⟨k, rfl⟩

/-- Settles O4: each word of the table is the word the encoder gives for the command beside it. -/
theorem workedEncodingsDecode : Obligations.WorkedEncodingsDecode :=
  ⟨decodeOfEncodeIsTheCommand .nop,
    decodeOfEncodeIsTheCommand (.wrl 0x10#8 0x0800#16),
    decodeOfEncodeIsTheCommand (.wrl 0x17#8 0x6000#16),
    decodeOfEncodeIsTheCommand (.wrl 0x00#8 0x0003#16),
    decodeOfEncodeIsTheCommand (.wrl 0x2A#8 0x0050#16),
    decodeOfEncodeIsTheCommand (.wrh 0x43#8 0xABCD#16),
    decodeOfEncodeIsTheCommand (.rd 0x21#8),
    decodeOfEncodeIsTheCommand (.play .buzz 5#16),
    decodeOfEncodeIsTheCommand (.play .silence 40#16),
    decodeOfEncodeIsTheCommand (.cenv .frication),
    decodeOfEncodeIsTheCommand (.rform 32#16),
    decodeOfEncodeIsTheCommand (.rfric 4#16),
    decodeOfEncodeIsTheCommand (.rsil 1280#16),
    decodeOfEncodeIsTheCommand .reset⟩

end Sys2Proof.Machine

/-! PROOF. The phase accumulators (40_phase_and_wavetable.md R120, R121), and what a renderer and the envelope calculator do to
`OSC[0]` and to the fricative phases: a sample advances them, `CENV` leaves the phases and sets `OSC[0].FREQ` (R129;
42_envelope.md R161, R169). -/

namespace Sys2Proof.Machine

open Sys2Proof Sys2Proof.Spec

theorem advance16_phase_toNat (o : Osc) : (advance16 o).phase.toNat = (o.phase.toNat + o.freq.toNat) % 2 ^ 16 :=
  BitVec.toNat_add ..

theorem advance32_phase_toNat (o : Fosc) : (advance32 o).phase.toNat = (o.phase.toNat + o.freq.toNat) % 2 ^ 32 :=
  BitVec.toNat_add ..

/-- Settles O10: the sum of two bit vectors is the sum modulo 2^width. -/
theorem phaseAccumulatorsWrap : Obligations.PhaseAccumulatorsWrap :=
  ⟨fun o => ⟨advance16_phase_toNat o, rfl, rfl⟩, fun o => ⟨advance32_phase_toNat o, rfl⟩⟩

@[simp] theorem oscLater_zero (o : Osc) : oscLater 0 o = o := by simp [oscLater]

theorem advance16_oscLater (n : Nat) (o : Osc) : advance16 (oscLater n o) = oscLater (n + 1) o := by
  have hphase : o.phase + BitVec.ofNat 16 (n * o.freq.toNat) + o.freq =
      o.phase + BitVec.ofNat 16 ((n + 1) * o.freq.toNat) := by
    rw [Nat.add_mul, Nat.one_mul, BitVec.ofNat_add, BitVec.ofNat_toNat, BitVec.setWidth_eq, BitVec.add_assoc]
  rw [advance16, oscLater, oscLater, hphase]

/-- Both renderers that make sound advance the fundamental. -/
theorem oscAfter_fundamental {k : Kind} (hk : k ≠ .silence) (s : State) :
    (oscAfter k s).get 0 = advance16 (s.osc.get 0) := by
  cases k with
  | formant => rw [oscAfter, Vec7.get_map]
  | fricative => rw [oscAfter, Vec7.get_set, if_pos rfl]
  | silence => exact absurd rfl hk

/-- The formant oscillators that a fricative sample does not advance. -/
theorem oscAfter_fricative_harmonic {j : Fin 7} (hj : j ≠ 0) (s : State) :
    (oscAfter .fricative s).get j = s.osc.get j := by
  rw [oscAfter, Vec7.get_set, if_neg hj]

theorem samples_fundamental {k : Kind} (hk : k ≠ .silence) (c : Cfg) (n : Nat) (s : State) :
    (samples c k n s).osc.get 0 = oscLater n (s.osc.get 0) := by
  induction n with
  | zero => rw [samples_zero, oscLater_zero]
  | succ n ih =>
    calc (samples c k (n + 1) s).osc.get 0
      _ = (oscAfter k (samples c k n s)).get 0 := by rw [samples_succ', sample_eq]; rfl
      _ = oscLater (n + 1) (s.osc.get 0) := by rw [oscAfter_fundamental hk, ih, advance16_oscLater]

/-- The two states have the same phase of the fundamental and the same fricative phases. -/
structure SamePhases (s t : State) : Prop where
  fundamental : (t.osc.get 0).phase = (s.osc.get 0).phase
  fricative : ∀ k, (t.fosc.get k).phase = (s.fosc.get k).phase

theorem SamePhases.of_eq {s t : State} (hosc : t.osc = s.osc) (hfosc : t.fosc = s.fosc) : SamePhases s t :=
  ⟨by rw [hosc], fun k => by rw [hfosc]⟩

theorem cenvNoise_osc (c : Cfg) (s : State) : (cenvNoise c s).osc = s.osc.set 0 (fundamental c s) := rfl

theorem cenvNoise_samePhases (c : Cfg) (s : State) : SamePhases s (cenvNoise c s) where
  fundamental := by rw [cenvNoise_osc, Vec7.get_set, if_pos rfl]; rfl
  fricative k := by rw [cenvNoise, State.withFosc_fosc, Vec3.get_ofFn]

/-- `CENV` keeps the phases of the fundamental and of the fricative bank (42_envelope.md R161, R169). -/
theorem cenv_samePhases (c : Cfg) (src : Source) (s : State) : SamePhases s (cenv c src s) := by
  cases src with
  | silence => exact .of_eq rfl rfl
  | aspiration =>
    obtain ⟨hosc, hfosc⟩ := cenvNoise_samePhases c (muteVoiceBar s)
    exact ⟨hosc, hfosc⟩
  | frication => exact cenvNoise_samePhases c s
  | buzz => exact ⟨rfl, fun _ => rfl⟩

/-- `CENV` sets the fundamental's `FREQ` to channel 0 of the `CUR` it leaves (42_envelope.md R161, R168, R169). -/
theorem cenv_fundamental_freq {src : Source} (hsrc : src ≠ .silence) (c : Cfg) (s : State) :
    ((cenv c src s).osc.get 0).freq = (cenv c src s).cur.get 0 := by
  cases src with
  | silence => exact absurd rfl hsrc
  | aspiration => rw [cenv, cenvNoise_osc, Vec7.get_set, if_pos rfl]; rfl
  | frication => rw [cenv, cenvNoise_osc, Vec7.get_set, if_pos rfl]; rfl
  | buzz => rfl

theorem beginSlice_samePhases (c : Cfg) (g : Segment) (i : Nat) (s : State) : SamePhases s (beginSlice c g i s) := by
  obtain ⟨hosc, hfosc⟩ := cenv_samePhases c g.src (s.withCur (sliceFreqs g i))
  exact ⟨hosc, hfosc⟩

theorem beginSlice_fundamental_freq {g : Segment} (hsrc : g.src ≠ .silence) (c : Cfg) (i : Nat) (s : State) :
    ((beginSlice c g i s).osc.get 0).freq = (sliceFreqs g i).get 0 := by
  rw [← beginSlice_cur c g i s, beginSlice, cenv_fundamental_freq hsrc]

end Sys2Proof.Machine

/-! PROOF. What `PLAY` leaves unchanged, and how far the fundamental's phase advances: each fact is one of a timeslice,
carried over a run of timeslices (10_state.md R34; 43_segment_player.md R188, R190). -/

namespace Sys2Proof.Machine

open Sys2Proof Sys2Proof.Spec

/-! ### The number of samples -/

theorem samples_length (c : Cfg) (k : Kind) (n : Nat) (s : State) :
    (samples c k n s).samples.length = s.samples.length + n := by
  induction n with
  | zero => rfl
  | succ n ih => rw [samples_succ', sample_eq, State.withSamples_samples, List.length_append, ih]; rfl

theorem beginSlice_samples (c : Cfg) (g : Segment) (i : Nat) (s : State) :
    (beginSlice c g i s).samples = s.samples := by
  rw [beginSlice, cenv_frame]; rfl

theorem playSlices_length (c : Cfg) (g : Segment) (i k : Nat) (s : State) :
    (playSlices c g i k s).samples.length = s.samples.length + k * c.sliceLen := by
  induction k generalizing i s with
  | zero => rw [playSlices_zero, Nat.zero_mul, Nat.add_zero]
  | succ k ih =>
    rw [playSlices_succ, ih, playSlice, samples_length, beginSlice_samples, Nat.succ_mul]
    omega

/-! ### The flag -/

theorem samples_ovf_sticky (c : Cfg) (k : Kind) (n : Nat) {s : State} (h : s.status.ovf = true) :
    (samples c k n s).status.ovf = true :=
  samples_induct (P := fun t => t.status.ovf = true)
    (fun t ht => by rw [sample_eq, State.withSamples_status, State.withStatus_status, ht, Bool.true_or]) n h

theorem playSlice_ovf_sticky (c : Cfg) (g : Segment) (i : Nat) {s : State} (h : s.status.ovf = true) :
    (playSlice c g i s).status.ovf = true :=
  samples_ovf_sticky c _ _ (by rw [beginSlice, cenv_frame]; exact h)

/-! ### The oscillators a source does not use -/

theorem samples_formant_fosc (c : Cfg) (n : Nat) (s : State) : (samples c .formant n s).fosc = s.fosc :=
  samples_induct (P := fun t => t.fosc = s.fosc) (fun t ht => by rw [sample_eq]; exact ht) n rfl

theorem playSlice_buzz_fosc {g : Segment} (hsrc : g.src = .buzz) (c : Cfg) (i : Nat) (s : State) :
    (playSlice c g i s).fosc = s.fosc := by
  rw [playSlice, hsrc, kindOf, samples_formant_fosc, beginSlice, hsrc]; rfl

/-- The two states have the same `OSC[1..6]`. -/
def SameHarmonics (s t : State) : Prop := ∀ j, j ≠ 0 → t.osc.get j = s.osc.get j

theorem SameHarmonics.trans {s t u : State} (h : SameHarmonics s t) (h' : SameHarmonics t u) : SameHarmonics s u :=
  fun j hj => (h' j hj).trans (h j hj)

theorem SameHarmonics.osc_eq {s t : State} (h : SameHarmonics s t) : t.osc = s.osc.set 0 (t.osc.get 0) := by
  refine Vec7.ext_get fun j => ?_
  rw [Vec7.get_set]
  split
  next hj => rw [hj]
  next hj => exact h j hj

theorem samples_fricative_sameHarmonics (c : Cfg) (n : Nat) (s : State) :
    SameHarmonics s (samples c .fricative n s) :=
  samples_induct (P := SameHarmonics s)
    (fun t ht => ht.trans fun j hj => by rw [sample_eq]; exact oscAfter_fricative_harmonic hj t) n fun _ _ => rfl

theorem cenvNoise_sameHarmonics (c : Cfg) (s : State) : SameHarmonics s (cenvNoise c s) :=
  fun j hj => by rw [cenvNoise_osc, Vec7.get_set, if_neg hj]

theorem cenv_noise_sameHarmonics {src : Source} (hsound : src ≠ .silence) (hsrc : src ≠ .buzz) (c : Cfg) (s : State) :
    SameHarmonics s (cenv c src s) := by
  cases src with
  | silence => exact absurd rfl hsound
  | aspiration => exact fun j hj => cenvNoise_sameHarmonics c (muteVoiceBar s) j hj
  | frication => exact cenvNoise_sameHarmonics c s
  | buzz => exact absurd rfl hsrc

theorem kindOf_noise {src : Source} (hsound : src ≠ .silence) (hsrc : src ≠ .buzz) : kindOf src = .fricative := by
  cases src with
  | silence => exact absurd rfl hsound
  | aspiration | frication => rfl
  | buzz => exact absurd rfl hsrc

theorem playSlice_noise_sameHarmonics {g : Segment} (hsound : g.src ≠ .silence) (hsrc : g.src ≠ .buzz) (c : Cfg)
    (i : Nat) (s : State) : SameHarmonics s (playSlice c g i s) := by
  have hbegin : SameHarmonics s (beginSlice c g i s) :=
    fun j hj => cenv_noise_sameHarmonics hsound hsrc c (s.withCur (sliceFreqs g i)) j hj
  rw [playSlice, kindOf_noise hsound hsrc]
  exact hbegin.trans (samples_fricative_sameHarmonics c _ _)

/-! ### The fundamental's phase -/

theorem kindOf_ne_silence {src : Source} (h : src ≠ .silence) : kindOf src ≠ .silence := by
  cases src with
  | silence => exact absurd rfl h
  | aspiration | frication | buzz => decide

theorem playSlice_fundamental_phase {g : Segment} (hsrc : g.src ≠ .silence) (c : Cfg) (i : Nat) (s : State) :
    ((playSlice c g i s).osc.get 0).phase =
      (s.osc.get 0).phase + BitVec.ofNat 16 (c.sliceLen * ((sliceFreqs g i).get 0).toNat) := by
  rw [playSlice, samples_fundamental (kindOf_ne_silence hsrc), oscLater, (beginSlice_samePhases ..).fundamental,
    beginSlice_fundamental_freq hsrc]

theorem playSlices_fundamental_phase {g : Segment} (hsrc : g.src ≠ .silence) (c : Cfg) (i k : Nat) (s : State) :
    ((playSlices c g i k s).osc.get 0).phase =
      (s.osc.get 0).phase +
        BitVec.ofNat 16 (c.sliceLen * ((List.range' i k).map fun m => ((sliceFreqs g m).get 0).toNat).sum) := by
  induction k generalizing i s with
  | zero => simp
  | succ k ih =>
    rw [playSlices_succ, ih, playSlice_fundamental_phase hsrc, List.range'_succ, List.map_cons, List.sum_cons,
      Nat.mul_add, BitVec.ofNat_add, BitVec.add_assoc]

theorem sliceFreqs_latch_get (src : Source) (n : Half) (s : State) (i : Nat) (ch : Fin 4) :
    (sliceFreqs (latch src n s) i).get ch = channelFreq src n.toNat i s ch := by
  rw [sliceFreqs_get, latch_start_get, latch_stop_get]; rfl

/-! ### The whole command -/

/-- What the block's own work writes is the oscillators, `CUR`, `OVF` and the sample channel. -/
theorem SoundFrame.state_eq {s t : State} (h : SoundFrame s t) (hin : SameInputs s t) (hch : OnlySamples s t) :
    t = { s with
          osc := t.osc, fosc := t.fosc, cur := t.cur
          status := { s.status with ovf := t.status.ovf }
          samples := t.samples } :=
  State.ext rfl rfl h.start h.stop rfl h.ctrl (Status.ext h.ill rfl h.cause) h.badcmd h.seq hin.cmds rfl
    hch.responses hin.rst hin.smpReady hin.rspReady

/-- Settles O33: the frame is that of all the block's own work; the rest is carried over the timeslices. -/
theorem playLeavesTheRestUnchanged : Obligations.PlayLeavesTheRestUnchanged := by
  intro src n s hsrc hready
  have hplay : result (.play src n) s = play Config.cfg src n s := playCommand_ready hready ..
  have hslices := play_sound hsrc Config.cfg n s
  have hframe :=
    (play_soundFrame Config.cfg src n s).state_eq (play_sameInputs Config.cfg src n s) (play_onlySamples Config.cfg src n s)
  obtain ⟨out, hout⟩ := (play_onlySamples Config.cfg src n s).samples
  refine ⟨play Config.cfg src n s, out, by rw [exec_eq, hplay], by rw [hout]; exact hframe, ?_, fun hovf => ?_,
    fun hbuzz => ?_, fun hnoise => ?_, ?_⟩
  · have hlen := playSlices_length Config.cfg (latch src n s) 0 n.toNat s
    rw [← hslices, ← hout, List.length_append] at hlen
    omega
  · rw [hslices]
    exact playSlices_induct (P := fun t => t.status.ovf = true)
      (fun i t ht => playSlice_ovf_sticky Config.cfg _ i ht) _ _ hovf
  · rw [hslices]
    exact playSlices_induct (P := fun t => t.fosc = s.fosc)
      (fun i t ht => (playSlice_buzz_fosc hbuzz Config.cfg i t).trans ht) _ _ rfl
  · rw [hslices]
    exact SameHarmonics.osc_eq (playSlices_induct (P := SameHarmonics s)
      (fun i t ht => ht.trans (playSlice_noise_sameHarmonics hsrc hnoise Config.cfg i t)) _ _ fun _ _ => rfl)
  · rw [hslices, playSlices_fundamental_phase hsrc, List.range_eq_range']
    simp only [sliceFreqs_latch_get]

end Sys2Proof.Machine

/-! PROOF. Outside resets and host writes the phases of the fundamental and of the fricative bank only advance
(40_phase_and_wavetable.md R129): RENDER advances them by one `FREQ`, every other operation of a step leaves them. -/

namespace Sys2Proof.Machine

open Sys2Proof Sys2Proof.Spec

/-! ### The commands -/

/-- The registers of the two oscillator files. -/
def OscillatorReg : Reg → Prop
  | .oscFreq _ | .oscPhase _ | .oscWave _ | .foscFreq _ | .foscPhase _ => True
  | _ => False

theorem OscillatorReg.number {r : Reg} (h : OscillatorReg r) : 0x20 ≤ (regNumber r).toNat := by
  cases r with
  | oscFreq j | oscPhase j | oscWave j => simp only [regNumber, BitVec.toNat_ofNat]; omega
  | foscFreq k | foscPhase k => simp only [regNumber, BitVec.toNat_ofNat]; omega
  | _ => exact h.elim

theorem respond_samePhases (v : Word) (s : State) : SamePhases s (respond v s) := by
  rw [respond_frame]; exact .of_eq rfl rfl

theorem raiseIll_samePhases (k : Cause) (w : Word) (s : State) : SamePhases s (raiseIll k w s) := by
  rw [raiseIll_frame]; exact .of_eq rfl rfl

theorem writeLow_samePhases {r : Reg} (hr : ¬OscillatorReg r) (imm : Half) (s : State) :
    SamePhases s (writeLow r imm s) := by
  cases r with
  | oscFreq _ | oscPhase _ | oscWave _ | foscFreq _ | foscPhase _ => exact absurd trivial hr
  | status => rw [writeLow, clearStatus_eq]; exact .of_eq rfl rfl
  | _ => exact .of_eq rfl rfl

theorem writeHigh_samePhases {r : Reg} (hr : ¬OscillatorReg r) (imm : Half) (s : State) :
    SamePhases s (writeHigh r imm s) := by
  cases r with
  | foscFreq _ | foscPhase _ => exact absurd trivial hr
  | _ => exact .of_eq rfl rfl

theorem wrl_samePhases {reg : BitVec 8} (hreg : reg.toNat < 0x20) (c : Cfg) (imm : Half) (s : State) :
    SamePhases s (wrl c reg imm s) := by
  obtain ⟨k, hk⟩ | ⟨r, hr, -, hw⟩ := wrl_cases c reg imm
  · rw [hk]; exact raiseIll_samePhases ..
  · obtain rfl := regNumber_of_regOf hr
    rw [hw]
    exact writeLow_samePhases (fun hosc => Nat.not_lt.mpr hosc.number hreg) imm s

theorem wrh_samePhases {reg : BitVec 8} (hreg : reg.toNat < 0x20) (imm : Half) (s : State) :
    SamePhases s (wrh reg imm s) := by
  unfold wrh
  cases hr : regOf reg with
  | none => exact raiseIll_samePhases ..
  | some r =>
    cases hk : highWriteCause r with
    | some k => simp only [hk]; exact raiseIll_samePhases ..
    | none =>
      obtain rfl := regNumber_of_regOf hr
      simp only [hk]
      exact writeHigh_samePhases (fun hosc => Nat.not_lt.mpr hosc.number hreg) imm s

theorem rd_samePhases (c : Cfg) (reg : BitVec 8) (s : State) : SamePhases s (rd c reg s) := by
  obtain hk | ⟨r, -, hr⟩ := rd_cases c reg
  · rw [hk]; exact raiseIll_samePhases ..
  · rw [hr]; exact respond_samePhases ..

/-- With the sink not ready a renderer command renders nothing in the step that accepts it. -/
theorem renderCommand_busy_samePhases {s : State} (hbusy : s.smpReady = false) (c : Cfg) (op : SeqOp) (k : Kind)
    (n : Half) : SamePhases s (renderCommand c op k n s) := by
  by_cases hn : n = 0#16
  · rw [hn, renderCommand_zero]; exact .of_eq rfl rfl
  · rw [renderCommand_busy hbusy c op k hn]; exact .of_eq rfl rfl

theorem startPlay_samePhases (c : Cfg) (src : Source) (n : Half) (s : State) : SamePhases s (startPlay c src n s) := by
  unfold startPlay; split <;> exact .of_eq rfl rfl

theorem playCommand_busy_samePhases {s : State} (hbusy : s.smpReady = false) (c : Cfg) (src : Source) (n : Half) :
    SamePhases s (playCommand c src n s) := by
  by_cases hn : n = 0#16
  · rw [hn, playCommand_zero]; exact .of_eq rfl rfl
  · rw [playCommand_busy hbusy c src hn]; exact startPlay_samePhases ..

/-- `RESET`, and the host writes of a number above 0x1F: the commands whose acceptance can set one of these phases. -/
def SetsPhase (i : Instr) : Prop :=
  i = .reset ∨ ∃ reg imm, 0x20 ≤ reg.toNat ∧ (i = .wrl reg imm ∨ i = .wrh reg imm)

theorem result_busy_phases (i : Instr) {s : State} (hbusy : s.smpReady = false) :
    SamePhases s (result i s) ∨ SetsPhase i := by
  cases i with
  | nop => exact .inl (.of_eq rfl rfl)
  | wrl reg imm =>
    obtain hreg | hreg := Nat.lt_or_ge reg.toNat 0x20
    · exact .inl (wrl_samePhases hreg _ imm s)
    · exact .inr (.inr ⟨reg, imm, hreg, .inl rfl⟩)
  | wrh reg imm =>
    obtain hreg | hreg := Nat.lt_or_ge reg.toNat 0x20
    · exact .inl (wrh_samePhases hreg imm s)
    · exact .inr (.inr ⟨reg, imm, hreg, .inr rfl⟩)
  | rd reg => exact .inl (rd_samePhases _ reg s)
  | play src n => exact .inl (playCommand_busy_samePhases hbusy _ src n)
  | cenv src => exact .inl (cenv_samePhases _ src s)
  | rform n => exact .inl (renderCommand_busy_samePhases hbusy _ _ _ n)
  | rfric n => exact .inl (renderCommand_busy_samePhases hbusy _ _ _ n)
  | rsil n => exact .inl (renderCommand_busy_samePhases hbusy _ _ _ n)
  | reset => exact .inr (.inl rfl)

/-! ### The words of these commands -/

theorem toNat_append_eq_add {m n : Nat} (a : BitVec m) (b : BitVec n) :
    (a ++ b).toNat = a.toNat * 2 ^ n + b.toNat := by
  rw [BitVec.toNat_append, ← Nat.shiftLeft_add_eq_or_of_lt b.isLt, Nat.shiftLeft_eq]

theorem encode_wrh (reg : BitVec 8) (imm : Half) : encode (.wrh reg imm) = BitVec.ofNat 32 (wrhWord reg imm) := by
  apply BitVec.eq_of_toNat_eq
  have hreg := reg.isLt
  have himm := imm.isLt
  rw [encode, formatR, toNat_append_eq_add, toNat_append_eq_add, toNat_append_eq_add, BitVec.toNat_ofNat, wrhWord]
  simp only [opcodeBits, BitVec.toNat_ofNat]
  omega

theorem word_of_decode_wrh {w : Word} {reg : BitVec 8} {imm : Half} (h : decode w = .command (.wrh reg imm)) :
    w = BitVec.ofNat 32 (wrhWord reg imm) := by
  rw [← encode_wrh, decode_eq_command_iff.mp h]

/-! ### The step -/

/-- From `s` to `t` each of these phases moved by nothing or by one `FREQ`. -/
structure PhasesAdvanced (s t : State) : Prop where
  fundamental : (t.osc.get 0).phase = (s.osc.get 0).phase ∨
    (t.osc.get 0).phase = (s.osc.get 0).phase + (s.osc.get 0).freq
  fricative : ∀ k, (t.fosc.get k).phase = (s.fosc.get k).phase ∨
    (t.fosc.get k).phase = (s.fosc.get k).phase + (s.fosc.get k).freq

theorem SamePhases.advanced {s t : State} (h : SamePhases s t) : PhasesAdvanced s t :=
  ⟨.inl h.fundamental, fun k => .inl (h.fricative k)⟩

theorem renderState_phasesAdvanced (c : Cfg) (k : Kind) (s : State) : PhasesAdvanced s (renderState c k s) := by
  rw [renderState_eq]
  cases k with
  | silence => exact ⟨.inl rfl, fun _ => .inl rfl⟩
  | formant => exact ⟨.inr (congrArg Osc.phase (oscAfter_fundamental (k := .formant) (by decide) s)), fun _ => .inl rfl⟩
  | fricative =>
    exact ⟨.inr (congrArg Osc.phase (oscAfter_fundamental (k := .fricative) (by decide) s)),
      fun j => .inr (congrArg Fosc.phase (Vec3.get_map advance32 s.fosc j))⟩

theorem tickResp_samePhases (s : State) : SamePhases s (tickResp s) := by
  unfold tickResp; split <;> exact .of_eq rfl rfl

theorem tickSlice_samePhases (c : Cfg) (s : State) : SamePhases s (tickSlice c s) := by
  obtain ⟨hosc, hfosc⟩ := beginSlice_samePhases c (seqSegment s.seq) s.seq.i.toNat s
  exact ⟨hosc, hfosc⟩

theorem tickRender_phasesAdvanced (c : Cfg) (s : State) : PhasesAdvanced s (tickRender c s) := by
  obtain ⟨hosc, hfosc⟩ := renderState_phasesAdvanced c (seqKind s.seq) s
  exact ⟨hosc, hfosc⟩

theorem tickEmit_samePhases (s : State) : SamePhases s (tickEmit s) := by
  unfold tickEmit; split <;> exact .of_eq rfl rfl

/-- A step that is no reset advances these phases, or accepts the word of a command that can set one. -/
theorem step_phases {s t : State} (h : step s = .next t) (hrst : s.rst = false)
    (hbusy : s.seq.st = .idle → s.smpReady = false) :
    PhasesAdvanced s t ∨ s.seq.st = .idle ∧ ∃ w i, s.cmds.head? = some w ∧ decode w = .command i ∧ SetsPhase i := by
  obtain ⟨hr, -⟩ | ⟨-, -, -, rfl⟩ | ⟨-, hst, w, ws, hw, ⟨i, hi, rfl⟩ | ⟨k, -, rfl⟩⟩ | ⟨-, -, rfl⟩ | ⟨-, -, rfl⟩ |
    ⟨-, -, rfl⟩ | ⟨-, -, rfl⟩ := step_cases h
  case inl => rw [hrst] at hr; contradiction
  case inr.inl => exact .inl (SamePhases.of_eq rfl rfl).advanced
  case inr.inr.inl.inl =>
    obtain ⟨hosc, hfosc⟩ | hwrites := result_busy_phases i (s := s.withCmds ws) (hbusy hst)
    · exact .inl (SamePhases.advanced (s := s) ⟨hosc, hfosc⟩)
    · exact .inr ⟨hst, w, i, by rw [hw]; rfl, hi, hwrites⟩
  case inr.inr.inl.inr =>
    obtain ⟨hosc, hfosc⟩ := raiseIll_samePhases k w (s.withCmds ws)
    exact .inl (SamePhases.advanced (s := s) ⟨hosc, hfosc⟩)
  · exact .inl (tickResp_samePhases s).advanced
  · exact .inl (tickSlice_samePhases _ s).advanced
  · exact .inl (tickRender_phasesAdvanced _ s)
  · exact .inl (tickEmit_samePhases s).advanced

/-- Settles O60: the words the statement excludes are those of the commands that can set one of these phases. -/
theorem phasesOnlyAdvance : Obligations.PhasesOnlyAdvance := by
  intro s t hstep hrst hidle
  obtain ⟨hosc, hfosc⟩ | ⟨hst, w, i, hw, hi, hwrites⟩ := step_phases hstep hrst fun hst => (hidle hst).1
  · exact ⟨hosc, hfosc⟩
  · obtain ⟨-, hreset, hwrite⟩ := hidle hst
    obtain rfl | ⟨reg, imm, hreg, rfl | rfl⟩ := hwrites
    · exact absurd (word_of_decode_reset hi ▸ hw) hreset
    · exact absurd (word_of_decode_wrl hi ▸ hw) (hwrite reg imm hreg).1
    · exact absurd (word_of_decode_wrh hi ▸ hw) (hwrite reg imm hreg).2

end Sys2Proof.Machine

/-! PROOF. The mute rule (40_phase_and_wavetable.md R126): while every `FREQ` is 0 no phase moves and every sample is 0, so
the state after reset is silent (10_state.md R33). -/

namespace Sys2Proof.Machine

open Sys2Proof

/-- Every oscillator is muted. -/
structure Muted (s : State) : Prop where
  osc : ∀ j, (s.osc.get j).freq = 0#16
  fosc : ∀ k, (s.fosc.get k).freq = 0#32

theorem reset_muted : Muted State.reset := ⟨fun j => by simp [State.reset], fun k => by simp [State.reset]⟩

theorem advance16_muted {o : Osc} (h : o.freq = 0#16) : advance16 o = o := by
  rw [advance16, h, BitVec.add_zero, ← h]

theorem advance32_muted {o : Fosc} (h : o.freq = 0#32) : advance32 o = o := by
  rw [advance32, h, BitVec.add_zero, ← h]

theorem bankSum_eq_sum (c : Cfg) (v : Vec7 Osc) : bankSum c v = ∑ j, (oscOut c (v.get j)).toInt := by
  rw [Fin.sum_univ_seven]; rfl

theorem fricSum_eq_sum (c : Cfg) (o : Osc) (v : Vec3 Fosc) :
    fricSum c o v = ∑ k, (foscOut c (v.get k)).toInt + c.amMix (oscOut c o) (noiseRaw c (v.get 0)) := by
  rw [Fin.sum_univ_three]; rfl

theorem oscOut_muted {o : Osc} (h : o.freq = 0#16) (c : Cfg) : oscOut c o = 0#8 := if_pos h

theorem foscOut_muted {o : Fosc} (h : o.freq = 0#32) (c : Cfg) : foscOut c o = 0#8 := if_pos h

section
variable {c : Cfg} {s : State}

theorem Muted.oscAfter_eq (h : Muted s) (k : Kind) : oscAfter k s = s.osc := by
  cases k with
  | formant => exact Vec7.ext_get fun j => (Vec7.get_map ..).trans (advance16_muted (h.osc j))
  | fricative => rw [oscAfter, advance16_muted (h.osc 0), Vec7.set_get]
  | silence => rfl

theorem Muted.foscAfter_eq (h : Muted s) (k : Kind) : foscAfter k s = s.fosc := by
  cases k with
  | fricative => exact Vec3.ext_get fun j => (Vec3.get_map ..).trans (advance32_muted (h.fosc j))
  | formant | silence => rfl

theorem Muted.bankSum_eq_zero (h : Muted s) (c : Cfg) : bankSum c s.osc = 0 := by
  rw [bankSum_eq_sum]
  exact Finset.sum_eq_zero fun j _ => by rw [oscOut_muted (h.osc j)]; rfl

/-- `am_mix` is 0 where the buzz is (00_scope.md R6). -/
theorem Muted.fricSum_eq_zero (h : Muted s) (hc : c.Valid) : fricSum c (s.osc.get 0) s.fosc = 0 := by
  have hnoise : ∑ k, (foscOut c (s.fosc.get k)).toInt = 0 :=
    Finset.sum_eq_zero fun k _ => by rw [foscOut_muted (h.fosc k)]; rfl
  rw [fricSum_eq_sum, hnoise, oscOut_muted (h.osc 0), hc.amMix_zero, Int.add_zero]

theorem Muted.formantAcc_eq_zero (h : Muted s) (c : Cfg) : formantAcc c s = 0 := by
  change bankSum c (oscAfter .formant s) = 0
  rw [h.oscAfter_eq, h.bankSum_eq_zero]

theorem Muted.fricativeAcc_eq_zero (h : Muted s) (hc : c.Valid) : fricativeAcc c s = 0 := by
  change fricSum c ((oscAfter .fricative s).get 0) (foscAfter .fricative s) = 0
  rw [h.oscAfter_eq, h.foscAfter_eq, h.fricSum_eq_zero hc]

theorem narrow8_zero (c : Cfg) : narrow8 c 0 = 0#8 := rfl

theorem Muted.renderOut_eq_zero (h : Muted s) (hc : c.Valid) (k : Kind) : renderOut c k s = 0#8 := by
  cases k with
  | formant => rw [renderOut, h.formantAcc_eq_zero, narrow8_zero]
  | fricative => rw [renderOut, h.fricativeAcc_eq_zero hc, narrow8_zero]
  | silence => rfl

theorem Muted.ovfOf_eq_false (h : Muted s) (hc : c.Valid) (k : Kind) : ovfOf c k s = false := by
  cases k with
  | formant => rw [ovfOf, h.formantAcc_eq_zero]; rfl
  | fricative => rw [ovfOf, h.fricativeAcc_eq_zero hc]; rfl
  | silence => rfl

theorem Muted.sample_eq_emit (h : Muted s) (hc : c.Valid) (k : Kind) : sample c k s = emit 0#8 s := by
  rw [sample_eq, h.oscAfter_eq, h.foscAfter_eq, h.ovfOf_eq_false hc, h.renderOut_eq_zero hc, Bool.or_false]; rfl

/-- A run of any renderer on a muted state emits zeros and changes nothing else. -/
theorem Muted.samples_eq (h : Muted s) (hc : c.Valid) (k : Kind) (n : Nat) :
    samples c k n s = s.withSamples (s.samples ++ List.replicate n 0#8) := by
  induction n with
  | zero => rw [samples_zero, List.replicate_zero, List.append_nil]; rfl
  | succ n ih =>
    have hmuted : Muted (s.withSamples (s.samples ++ List.replicate n 0#8)) := ⟨h.osc, h.fosc⟩
    rw [samples_succ', ih, hmuted.sample_eq_emit hc, emit_eq, State.withSamples_samples, List.append_assoc,
      ← List.replicate_succ']
    rfl

end

/-- Settles O22: the state after reset is muted. -/
theorem resetBlockIsSilent : Obligations.ResetBlockIsSilent := by
  intro n
  have hsilent (op : SeqOp) (k : Kind) : renderCommand Config.cfg op k n State.reset =
      { State.reset with samples := List.replicate n.toNat 0#8 } := by
    rw [renderCommand_ready rfl, reset_muted.samples_eq Config.cfg_valid]; rfl
  exact ⟨congrArg _ (hsilent .rform .formant), congrArg _ (hsilent .rfric .fricative)⟩

end Sys2Proof.Machine

/-! PROOF. The narrowing of a sum (41_renderer.md R143). A sum that fits is emitted as it is, whatever `OUT_NARROW` says;
`OVF` is sticky, so a run that ends with `OVF` = 0 has narrowed no sum, and the two settings cannot be told apart. -/

namespace Sys2Proof.Machine

open Sys2Proof Sys2Proof.Spec

/-! ### One sum -/

theorem overflows_iff (acc : Int) : overflows acc = true ↔ TooBig acc := by simp [overflows]

theorem overflows_eq_false_iff (acc : Int) : overflows acc = false ↔ ¬ TooBig acc := by
  rw [← overflows_iff, Bool.not_eq_true]

theorem toInt_ofInt_byte {x : Int} (hlow : -128 ≤ x) (hhigh : x < 128) : (BitVec.ofInt 8 x).toInt = x :=
  BitVec.toInt_ofInt_eq_self (by decide) hlow hhigh

theorem narrow8_of_fits {acc : Int} (h : overflows acc = false) (c : Cfg) : narrow8 c acc = BitVec.ofInt 8 acc := by
  simp [narrow8, h]

theorem narrow8_wrap {c : Cfg} (hc : c.outNarrow = .wrap) {acc : Int} (h : overflows acc = true) :
    narrow8 c acc = BitVec.ofInt 8 ((acc + 128) % 256 - 128) := by simp [narrow8, h, hc]

theorem narrow8_saturate {c : Cfg} (hc : c.outNarrow = .saturate) {acc : Int} (h : overflows acc = true) :
    narrow8 c acc = BitVec.ofInt 8 (max (-128) (min 127 acc)) := by simp [narrow8, h, hc]

/-- Settles O12: each of the three values lies in the range of a signed byte. -/
theorem narrowingOfASum : Obligations.NarrowingOfASum := by
  refine fun c acc s => ⟨fun hfits => ?_, fun hbig => ?_⟩
  · have hovf := (overflows_eq_false_iff acc).2 hfits
    refine ⟨?_, by rw [noteOverflow_eq, hovf, Bool.or_false, State.withStatus_self]⟩
    rw [narrow8_of_fits hovf, toInt_ofInt_byte (by omega) (by omega)]
  · have hovf := (overflows_iff acc).2 hbig
    refine ⟨by rw [noteOverflow_eq, hovf, Bool.or_true]; rfl, fun hwrap => ?_, fun hsaturate => ?_⟩
    · rw [narrow8_wrap hwrap hovf, toInt_ofInt_byte (by omega) (by omega)]
    · rw [narrow8_saturate hsaturate hovf, toInt_ofInt_byte (by omega) (by omega)]
      split <;> omega

/-! ### The two settings -/

section
variable (c : Cfg) (x : Narrow)

/-- `OUT_NARROW` is read for a sum that does not fit and for nothing else. -/
theorem renderOut_outNarrow {k : Kind} {s : State} (h : ovfOf c k s = false) :
    renderOut { c with outNarrow := x } k s = renderOut c k s := by
  cases k with
  | formant | fricative => exact (narrow8_of_fits h _).trans (narrow8_of_fits h c).symm
  | silence => rfl

theorem ovfOf_outNarrow (k : Kind) (s : State) : ovfOf { c with outNarrow := x } k s = ovfOf c k s := by
  cases k <;> rfl

theorem sample_ovf (k : Kind) (s : State) : (sample c k s).status.ovf = (s.status.ovf || ovfOf c k s) := by
  rw [sample_eq]; rfl

theorem sample_outNarrow {k : Kind} {s : State} (h : (sample c k s).status.ovf = false) :
    sample { c with outNarrow := x } k s = sample c k s := by
  rw [sample_ovf, Bool.or_eq_false_iff] at h
  rw [sample_eq, sample_eq, ovfOf_outNarrow, renderOut_outNarrow c x h.2]

theorem samples_outNarrow {k : Kind} {n : Nat} {s : State} (h : (samples c k n s).status.ovf = false) :
    samples { c with outNarrow := x } k n s = samples c k n s := by
  induction n with
  | zero => rfl
  | succ n ih =>
    rw [samples_succ'] at h
    have hbefore := h
    rw [sample_ovf, Bool.or_eq_false_iff] at hbefore
    rw [samples_succ', samples_succ', ih hbefore.1, sample_outNarrow c x h]

/-- The envelope calculator reads no `OUT_NARROW`. -/
theorem beginSlice_outNarrow (g : Segment) (i : Nat) (s : State) :
    beginSlice { c with outNarrow := x } g i s = beginSlice c g i s := by
  unfold beginSlice; cases g.src <;> rfl

theorem playSlice_outNarrow {g : Segment} {i : Nat} {s : State} (h : (playSlice c g i s).status.ovf = false) :
    playSlice { c with outNarrow := x } g i s = playSlice c g i s := by
  rw [playSlice, beginSlice_outNarrow]; exact samples_outNarrow c x h

theorem playSlices_ovf_sticky (g : Segment) (i k : Nat) {s : State} (h : s.status.ovf = true) :
    (playSlices c g i k s).status.ovf = true :=
  playSlices_induct (P := fun t => t.status.ovf = true) (fun j _ ht => playSlice_ovf_sticky c g j ht) i k h

theorem playSlices_outNarrow {g : Segment} {i k : Nat} {s : State} (h : (playSlices c g i k s).status.ovf = false) :
    playSlices { c with outNarrow := x } g i k s = playSlices c g i k s := by
  induction k generalizing i s with
  | zero => rfl
  | succ k ih =>
    rw [playSlices_succ] at h
    have hslice : (playSlice c g i s).status.ovf = false :=
      Bool.eq_false_of_not_eq_true fun ht => by rw [playSlices_ovf_sticky c g (i + 1) k ht] at h; cases h
    rw [playSlices_succ, playSlices_succ, playSlice_outNarrow c x hslice, ih h]

theorem play_outNarrow {src : Source} {n : Half} {s : State} (h : (play c src n s).status.ovf = false) :
    play { c with outNarrow := x } src n s = play c src n s := by
  by_cases hsrc : src = .silence
  · subst hsrc
    rw [play_silence] at h
    rw [play_silence, play_silence, samples_outNarrow c x h]
  · rw [play_sound hsrc] at h
    rw [play_sound hsrc, play_sound hsrc, playSlices_outNarrow c x h]

end

/-- Settles O15: `OVF` = 0 at the end is enough, for it implies `OVF` = 0 at the start and after every sample. -/
theorem narrowingModesAgreeWithoutOverflow : Obligations.NarrowingModesAgreeWithoutOverflow :=
  fun c x _ _ => ⟨fun _ _ h => samples_outNarrow c x h, fun _ _ h => play_outNarrow c x h⟩

end Sys2Proof.Machine

/-! PROOF. The default laws (41_renderer.md R147; 42_envelope.md R169; 00_scope.md R6). -/

namespace Sys2Proof.Machine

open Sys2Proof

/-- `am_mix` is the floored quotient by 2^`AM_SHIFT`: the two bounds that characterise it. -/
theorem defaultAmMix_bounds (n : Nat) (b m : Byte) :
    defaultAmMix n b m * 2 ^ n ≤ b.toInt * m.toInt ∧ b.toInt * m.toInt < (defaultAmMix n b m + 1) * 2 ^ n := by
  have hpos : (0 : Int) < 2 ^ n := by positivity
  rw [defaultAmMix, Int.fdiv_eq_ediv_of_nonneg _ hpos.le]
  exact ⟨Int.ediv_mul_le _ hpos.ne', Int.lt_ediv_add_one_mul_self _ hpos⟩

theorem defaultAmMix_zero_left (n : Nat) (m : Byte) : defaultAmMix n 0#8 m = 0 := by simp [defaultAmMix]

theorem defaultAmMix_zero_right (n : Nat) (b : Byte) : defaultAmMix n b 0#8 = 0 := by simp [defaultAmMix]

/-- A 16-bit frequency shifted by at most 16 keeps every bit in a word. -/
theorem defaultFricFreq_toNat {n : Nat} (hn : n ≤ 16) (k : Fin 3) (f : Half) :
    (defaultFricFreq n k f).toNat = f.toNat * 2 ^ n := by
  have hfits : f.toNat * 2 ^ n < 2 ^ 16 * 2 ^ 16 :=
    Nat.mul_lt_mul_of_lt_of_le f.isLt (Nat.pow_le_pow_right (by decide) hn) (by decide)
  rw [defaultFricFreq, BitVec.toNat_shiftLeft, BitVec.toNat_setWidth_of_le (by decide), Nat.shiftLeft_eq]
  exact Nat.mod_eq_of_lt hfits

theorem defaultFricFreq_zero (n : Nat) (k : Fin 3) : defaultFricFreq n k 0#16 = 0#32 := by simp [defaultFricFreq]

theorem withDefaultLaws_valid {c : Cfg} (hc : c.Valid) : (withDefaultLaws c).Valid :=
  { hc with
    fricFreq_zero := defaultFricFreq_zero c.fricFreqShift
    amMix_zero := defaultAmMix_zero_left c.amShift }

/-- Settles O14. -/
theorem defaultLaws : Obligations.DefaultLaws :=
  ⟨defaultAmMix_bounds, fun n b m => ⟨defaultAmMix_zero_left n m, defaultAmMix_zero_right n b⟩,
    fun _ k f hn => defaultFricFreq_toNat hn k f,
    fun _ hc => ⟨withDefaultLaws_valid hc, rfl, fun k f => defaultFricFreq_toNat hc.fricFreqShift_le k f⟩⟩

end Sys2Proof.Machine

/-! PROOF. The ranges of the exact sums (41_renderer.md R141, R146): each look-up is a signed byte, and `am_mix` of two
signed bytes at shift 7 lies in −127..128. -/

namespace Sys2Proof.Machine

open Sys2Proof

theorem byte_toInt_range (b : Byte) : -128 ≤ b.toInt ∧ b.toInt ≤ 127 := ⟨b.le_toInt, b.toInt_le⟩

theorem sum_bytes_range {n : Nat} (f : Fin n → Byte) :
    (n : Int) * -128 ≤ ∑ j, (f j).toInt ∧ ∑ j, (f j).toInt ≤ n * 127 := by
  have hlow := Finset.card_nsmul_le_sum Finset.univ (fun j => (f j).toInt) (-128) fun j _ => (byte_toInt_range (f j)).1
  have hhigh := Finset.sum_le_card_nsmul Finset.univ (fun j => (f j).toInt) 127 fun j _ => (byte_toInt_range (f j)).2
  rw [Finset.card_fin, nsmul_eq_mul] at hlow hhigh
  exact ⟨hlow, hhigh⟩

/-- The product of two signed bytes: the largest is (−128)², the smallest −128 * 127. -/
theorem byte_mul_range (b m : Byte) : -16256 ≤ b.toInt * m.toInt ∧ b.toInt * m.toInt ≤ 16384 := by
  refine ⟨?_, BitVec.toInt_mul_toInt_le⟩
  obtain ⟨hblow, hbhigh⟩ := byte_toInt_range b
  obtain ⟨hmlow, hmhigh⟩ := byte_toInt_range m
  obtain hb | hb := Int.le_total 0 b.toInt
  · have := Int.mul_le_mul_of_nonneg_left hmlow hb
    omega
  · have := Int.mul_le_mul_of_nonpos_left hb hmhigh
    omega

theorem defaultAmMix_range (b m : Byte) : -127 ≤ defaultAmMix 7 b m ∧ defaultAmMix 7 b m ≤ 128 := by
  obtain ⟨hmul, hlt⟩ := defaultAmMix_bounds 7 b m
  obtain ⟨hlow, hhigh⟩ := byte_mul_range b m
  constructor <;> omega

/-- Settles O13: seven signed bytes; three signed bytes and an `am_mix`. -/
theorem sumsStayInTheirRanges : Obligations.SumsStayInTheirRanges := by
  refine ⟨fun c v => ?_, fun c o v hmix => ?_⟩
  · rw [bankSum_eq_sum]
    exact sum_bytes_range fun j => oscOut c (v.get j)
  · have hsum := sum_bytes_range fun k => foscOut c (v.get k)
    have hmod := defaultAmMix_range (oscOut c o) (noiseRaw c (v.get 0))
    rw [fricSum_eq_sum, hmix]
    omega

end Sys2Proof.Machine

/-! PROOF. The arithmetic of the envelope calculator (42_envelope.md R162 to R165): the weights, the harmonic number and the
two shares of a weight. -/

namespace Sys2Proof.Machine

open Sys2Proof Sys2Proof.Spec

/-! ### The weights -/

theorem rollOff_eq (w : Nat) : rollOff w = w - w / 4 := by rw [rollOff, Nat.shiftRight_eq_div_pow]

/-- A quarter rounded down is less than the whole. -/
theorem rollOff_pos {w : Nat} (hw : 1 ≤ w) : 1 ≤ rollOff w := by
  rw [rollOff_eq]; omega

theorem weight_eq_weights (c : Cfg) (k : Fin 3) : weight c k = weights c.ampMax k := by
  match k with
  | 0 => rfl
  | 1 => exact rollOff_eq _
  | 2 => simp only [weight, weights, rollOff_eq]

theorem weight_pos {c : Cfg} (hc : c.Valid) (k : Fin 3) : 1 ≤ weight c k := by
  match k with
  | 0 => exact hc.ampMax_pos
  | 1 => exact rollOff_pos hc.ampMax_pos
  | 2 => exact rollOff_pos (rollOff_pos hc.ampMax_pos)

/-! ### The shares -/

theorem shares_muted {f0 f : Nat} (h : f0 = 0 ∨ f = 0) (w : Nat) : upperShare w f0 f = 0 ∧ lowerShare w f0 f = 0 :=
  ⟨if_pos h, if_pos h⟩

theorem upperShare_sounding {f0 f : Nat} (h : f0 ≠ 0 ∧ f ≠ 0) (w : Nat) :
    upperShare w f0 f = w * (f - harmonicNumber f0 f * f0) / f0 := if_neg (not_or.mpr h)

/-- The lower share is what the upper one leaves of the weight. -/
theorem lowerShare_add_upperShare {f0 f : Nat} (h : f0 ≠ 0 ∧ f ≠ 0) (w : Nat) :
    lowerShare w f0 f + upperShare w f0 f = w := by
  rw [lowerShare, if_neg (not_or.mpr h)]
  exact Nat.sub_add_cancel (upperShare_le w f0 f)

/-- Settles O26: of the two shares one is the rest of the weight, unless both are 0. -/
theorem amplitudeSharesFit : Obligations.AmplitudeSharesFit := by
  intro k f0 f
  refine ⟨weight_pos Config.cfg_valid k, weight_le _ k, weight_eq_weights _ k, ?_⟩
  split
  · next hmuted =>
    obtain ⟨hupper, hlower⟩ := shares_muted hmuted (weight Config.cfg k)
    rw [hupper, hlower]
  · next hsounding => rw [Nat.add_comm, lowerShare_add_upperShare (not_or.mp hsounding)]

/-! ### The harmonic number -/

/-- The lower bounding harmonic is not above the formant (R163). -/
theorem harmonicNumber_mul_le (f0 f : Nat) : harmonicNumber f0 f * f0 ≤ f := by
  rw [harmonicNumber]
  split
  · exact (Nat.zero_mul f0).trans_le (Nat.zero_le f)
  · exact Nat.div_mul_le_self f f0

end Sys2Proof.Machine

/-! PROOF. What `CENV` writes (42_envelope.md R161 to R170): the fundamental, then for the buzz the fields of the two harmonic
oscillators of a formant. The shares fit the six bits of `WAVE.AMP`, so packing loses nothing. -/

namespace Sys2Proof.Machine

open Sys2Proof Sys2Proof.Spec

theorem ampOf_packWave_toNat {a : Nat} (ha : a ≤ 63) (timbre : BitVec 2) : (ampOf (packWave timbre a)).toNat = a := by
  rw [ampOf_packWave, BitVec.toNat_ofNat, Nat.mod_eq_of_lt (by omega)]

/-! ### The fundamental -/

theorem fundamental_freq (c : Cfg) (s : State) : (fundamental c s).freq = s.cur.get 0 := rfl

theorem fundamental_phase (c : Cfg) (s : State) : (fundamental c s).phase = (s.osc.get 0).phase := rfl

theorem fundamental_timbre (c : Cfg) (s : State) : timbreOf (fundamental c s).wave = s.ctrl.timbre :=
  timbreOf_packWave ..

theorem fundamental_amp {c : Cfg} (hc : c.Valid) (s : State) :
    (ampOf (fundamental c s).wave).toNat = if s.cur.get 0 = 0#16 then 0 else c.ampMax := by
  have hfits : (if s.cur.get 0 = 0#16 then 0 else c.ampMax) ≤ 63 := by
    have := hc.ampMax_le
    split <;> omega
  exact ampOf_packWave_toNat hfits _

/-! ### The harmonics of a formant -/

theorem lowerOsc_freq_toNat (c : Cfg) (s : State) (k : Fin 3) (old : Osc) :
    (lowerOsc c s k old).freq.toNat = harmonicNumber (voiceBar s) (formantFreq s k) * voiceBar s := by
  have hle := harmonicNumber_mul_le (voiceBar s) (formantFreq s k)
  have hlt : formantFreq s k < 2 ^ 16 := (s.cur.get k.succ).isLt
  rw [lowerOsc, BitVec.toNat_ofNat, Nat.mod_eq_of_lt (hle.trans_lt hlt)]

theorem upperOsc_freq_toNat (c : Cfg) (s : State) (k : Fin 3) (old : Osc) :
    (upperOsc c s k old).freq.toNat = (harmonicNumber (voiceBar s) (formantFreq s k) + 1) * voiceBar s % 2 ^ 16 :=
  BitVec.toNat_ofNat ..

theorem lowerOsc_timbre (c : Cfg) (s : State) (k : Fin 3) (old : Osc) :
    timbreOf (lowerOsc c s k old).wave = s.ctrl.timbre := timbreOf_packWave ..

theorem upperOsc_timbre (c : Cfg) (s : State) (k : Fin 3) (old : Osc) :
    timbreOf (upperOsc c s k old).wave = s.ctrl.timbre := timbreOf_packWave ..

/-- Every weight fits an amplitude step. -/
theorem weight_le_63 {c : Cfg} (hc : c.Valid) (k : Fin 3) : weight c k ≤ 63 := (weight_le c k).trans hc.ampMax_le

theorem lowerOsc_amp {c : Cfg} (hc : c.Valid) (s : State) (k : Fin 3) (old : Osc) :
    (ampOf (lowerOsc c s k old).wave).toNat = lowerShare (weight c k) (voiceBar s) (formantFreq s k) :=
  ampOf_packWave_toNat ((lowerShare_le ..).trans (weight_le_63 hc k)) _

theorem upperOsc_amp {c : Cfg} (hc : c.Valid) (s : State) (k : Fin 3) (old : Osc) :
    (ampOf (upperOsc c s k old).wave).toNat = upperShare (weight c k) (voiceBar s) (formantFreq s k) :=
  ampOf_packWave_toNat ((upperShare_le ..).trans (weight_le_63 hc k)) _

/-- A formant or a fundamental of 0 mutes both harmonics (R165). -/
theorem harmonics_muted (c : Cfg) {s : State} {k : Fin 3} (h : voiceBar s = 0 ∨ formantFreq s k = 0) (lower upper : Osc) :
    ampOf (upperOsc c s k upper).wave = 0#6 ∧ ampOf (lowerOsc c s k lower).wave = 0#6 := by
  obtain ⟨hupper, hlower⟩ := shares_muted h (weight c k)
  constructor
  · rw [upperOsc, ampOf_packWave, hupper]
  · rw [lowerOsc, ampOf_packWave, hlower]

/-- The shares of a formant that sounds, in the oscillators' amplitude steps (R164). -/
theorem harmonics_sounding {c : Cfg} (hc : c.Valid) {s : State} {k : Fin 3} (h : voiceBar s ≠ 0 ∧ formantFreq s k ≠ 0)
    (lower upper : Osc) :
    (ampOf (upperOsc c s k upper).wave).toNat =
        weight c k * (formantFreq s k - harmonicNumber (voiceBar s) (formantFreq s k) * voiceBar s) / voiceBar s ∧
      (ampOf (lowerOsc c s k lower).wave).toNat + (ampOf (upperOsc c s k upper).wave).toNat = weight c k := by
  rw [lowerOsc_amp hc, upperOsc_amp hc]
  exact ⟨upperShare_sounding h _, lowerShare_add_upperShare h _⟩

theorem harmonicPhase_sync {s : State} (h : s.ctrl.psync = true) (m : Nat) (old : Osc) :
    (harmonicPhase m s old).toNat = m * (s.osc.get 0).phase.toNat % 2 ^ 16 := by
  rw [harmonicPhase, if_pos h, BitVec.toNat_ofNat]

theorem harmonicPhase_free {s : State} (h : s.ctrl.psync = false) (m : Nat) (old : Osc) :
    harmonicPhase m s old = old.phase := by
  rw [harmonicPhase, h, if_neg Bool.false_ne_true]

/-! ### The whole command -/

theorem cenvBuzz_fundamental (c : Cfg) (s : State) : (cenvBuzz c s).osc.get 0 = fundamental c s := rfl

theorem cenvBuzz_lower (c : Cfg) (s : State) (k : Fin 3) :
    (cenvBuzz c s).osc.get (lowerSlot k) = lowerOsc c s k (s.osc.get (lowerSlot k)) := by
  match k with
  | 0 | 1 | 2 => rfl

theorem cenvBuzz_upper (c : Cfg) (s : State) (k : Fin 3) :
    (cenvBuzz c s).osc.get (upperSlot k) = upperOsc c s k (s.osc.get (upperSlot k)) := by
  match k with
  | 0 | 1 | 2 => rfl

theorem cenvNoise_fundamental (c : Cfg) (s : State) : (cenvNoise c s).osc.get 0 = fundamental c s := by
  rw [cenvNoise_osc, Vec7.get_set, if_pos rfl]

theorem cenvNoise_frame (c : Cfg) (s : State) :
    cenvNoise c s =
      { s with
        osc := s.osc.set 0 ((cenvNoise c s).osc.get 0)
        fosc := .ofFn fun k => ⟨c.fricFreq k (s.cur.get k.succ), (s.fosc.get k).phase⟩ } := by
  rw [cenvNoise_fundamental]; rfl

/-- Settles O23: the slots of the bank are the fundamental and, per formant, the two harmonics, field by field. -/
theorem cenvBuzzSetsTheBank : Obligations.CenvBuzzSetsTheBank := by
  intro s
  refine ⟨cenvBuzz Config.cfg s, exec_eq _ _, rfl, ?_⟩
  rw [cenvBuzz_fundamental]
  refine ⟨fundamental_freq _ s, fundamental_phase _ s, fundamental_timbre _ s, fundamental_amp Config.cfg_valid s, ?_⟩
  rintro k _ _ _ _ rfl rfl rfl rfl
  rw [cenvBuzz_lower, cenvBuzz_upper, ← weight_eq_weights]
  exact ⟨lowerOsc_freq_toNat .., upperOsc_freq_toNat .., lowerOsc_timbre .., upperOsc_timbre ..,
    fun hsounding => harmonics_sounding Config.cfg_valid hsounding _ _,
    fun hmuted => harmonics_muted _ hmuted _ _,
    fun hsync => ⟨harmonicPhase_sync hsync _ _, harmonicPhase_sync hsync _ _⟩,
    fun hfree => ⟨harmonicPhase_free hfree _ _, harmonicPhase_free hfree _ _⟩⟩

/-- Settles O24: aspiration is the same noise case, after `CUR[0] <- 0`. -/
theorem cenvNoiseSetsTheFricativeBank : Obligations.CenvNoiseSetsTheFricativeBank := by
  intro s
  refine ⟨⟨cenvNoise Config.cfg s, exec_eq _ _, cenvNoise_frame _ s, ?_⟩, rfl⟩
  rw [cenvNoise_fundamental]
  exact ⟨fundamental_freq _ s, fundamental_phase _ s, fundamental_timbre _ s, fundamental_amp Config.cfg_valid s⟩

/-- Settles O25: every command answers a next state, and that of `CENV silence` is the state itself. -/
theorem cenvSilenceDoesNothing : Obligations.CenvSilenceDoesNothing := fun s => exec_eq (.cenv .silence) s

end Sys2Proof.Machine

/-! PROOF. The step-by-step form agrees with the big-step form (43_segment_player.md R197, R199, R200). From the sequencer's
registers one reads off how many transitions are left with a sink and a host that accept. Each transition takes one off
and leaves what the command comes to (`completed`), so after exactly that many the sequencer is in IDLE with the state
of the big-step form. -/

namespace Sys2Proof.Machine

open Sys2Proof Sys2Proof.Spec

/-! ### How many transitions are left -/

/-- The transitions of one timeslice: SLICE, then a RENDER and an EMIT per sample (R199). -/
def sliceTransitions (c : Cfg) : Nat := 1 + 2 * c.sliceLen

/-- The transitions of the timeslices of a sounding `PLAY` after the current one: those that `laterSlices` carries out. -/
def laterTransitions (c : Cfg) (q : Seq) : Nat :=
  if q.op = .play ∧ q.src ≠ .silence then (q.n.toNat - (q.i.toNat + 1)) * sliceTransitions c else 0

/-- The transitions after the sample in hand: those that `afterSample` carries out. -/
def transitionsAfterSample (c : Cfg) (q : Seq) : Nat :=
  2 * (q.cnt.toNat - (q.j.toNat + 1)) + laterTransitions c q

/-- The transitions to IDLE of a sequencer with the registers `q` when the sink and the host accept: those that carry out
`remaining`. -/
def transitionsLeft (c : Cfg) (q : Seq) : Nat :=
  match q.st with
  | .idle => 0
  | .resp => 1
  | .slice => sliceTransitions c + laterTransitions c q
  | .render => transitionsAfterSample c q + 2
  | .emit => transitionsAfterSample c q + 1

theorem transitionsLeft_idle {q : Seq} (h : q.st = .idle) (c : Cfg) : transitionsLeft c q = 0 := by
  simp only [transitionsLeft, h]

theorem transitionsLeft_resp {q : Seq} (h : q.st = .resp) (c : Cfg) : transitionsLeft c q = 1 := by
  simp only [transitionsLeft, h]

theorem transitionsLeft_slice {q : Seq} (h : q.st = .slice) (c : Cfg) :
    transitionsLeft c q = sliceTransitions c + laterTransitions c q := by
  simp only [transitionsLeft, h]

theorem transitionsLeft_render {q : Seq} (h : q.st = .render) (c : Cfg) :
    transitionsLeft c q = transitionsAfterSample c q + 2 := by
  simp only [transitionsLeft, h]

theorem transitionsLeft_emit {q : Seq} (h : q.st = .emit) (c : Cfg) :
    transitionsLeft c q = transitionsAfterSample c q + 1 := by
  simp only [transitionsLeft, h]

/-- Only in IDLE no transition is left. -/
theorem idle_of_transitionsLeft_eq_zero {c : Cfg} {q : Seq} (h : transitionsLeft c q = 0) : q.st = .idle := by
  cases hst : q.st with
  | idle => rfl
  | resp => rw [transitionsLeft_resp hst] at h; contradiction
  | slice => rw [transitionsLeft_slice hst, sliceTransitions] at h; omega
  | render => rw [transitionsLeft_render hst] at h; contradiction
  | emit => rw [transitionsLeft_emit hst] at h; contradiction

/-- Before its first sample, a run is a RENDER and an EMIT per sample. -/
theorem transitionsLeft_render_zero {q : Seq} (hst : q.st = .render) (hj : q.j = 0#32) (hc : 0 < q.cnt.toNat) (c : Cfg) :
    transitionsLeft c q = 2 * q.cnt.toNat + laterTransitions c q := by
  have hj0 : q.j.toNat = 0 := by rw [hj]; rfl
  rw [transitionsLeft_render hst, transitionsAfterSample]
  omega

/-- Before timeslice `SEQ.I` of a sounding `PLAY`, the transitions of that timeslice and of the later ones are left. -/
theorem transitionsLeft_slice_sound {q : Seq} (hst : q.st = .slice) (hsound : q.op = .play ∧ q.src ≠ .silence)
    (hi : q.i.toNat < q.n.toNat) (c : Cfg) :
    transitionsLeft c q = (q.n.toNat - q.i.toNat) * sliceTransitions c := by
  have hn : q.n.toNat - q.i.toNat = q.n.toNat - (q.i.toNat + 1) + 1 := by omega
  rw [transitionsLeft_slice hst, laterTransitions, if_pos hsound, hn, Nat.succ_mul, Nat.add_comm]

theorem laterTransitions_of_not_sound {q : Seq} (h : ¬(q.op = .play ∧ q.src ≠ .silence)) (c : Cfg) :
    laterTransitions c q = 0 := if_neg h

/-! ### Each transition takes one off -/

theorem tickSlice_transitionsLeft {s : State} (hst : s.seq.st = .slice) :
    transitionsLeft Config.cfg (tickSlice Config.cfg s).seq + 1 = transitionsLeft Config.cfg s.seq := by
  have hpos : 0 < (BitVec.ofNat 32 Config.cfg.sliceLen).toNat := by
    rw [sliceLen_toNat]; exact Config.cfg_valid.sliceLen_pos
  rw [tickSlice, State.withSeq_seq, transitionsLeft_render_zero rfl rfl hpos, transitionsLeft_slice hst, sliceLen_toNat,
    sliceTransitions]
  change _ + laterTransitions Config.cfg s.seq + 1 = _
  omega

theorem tickRender_transitionsLeft {s : State} (hst : s.seq.st = .render) (c : Cfg) :
    transitionsLeft c (tickRender c s).seq + 1 = transitionsLeft c s.seq := by
  rw [tickRender, State.withSeq_seq, transitionsLeft_emit rfl, transitionsLeft_render hst]
  rfl

/-- The arms of an acceptance are the cases of what follows a sample: another sample, another timeslice, nothing. -/
theorem afterAccept_transitionsLeft (c : Cfg) (q : Seq) :
    transitionsLeft c (afterAccept q) = transitionsAfterSample c q := by
  unfold afterAccept
  split
  next hj =>
    have hj1 : (q.j + 1#32).toNat = q.j.toNat + 1 := by bv_omega
    rw [transitionsLeft_render rfl, transitionsAfterSample, transitionsAfterSample, hj1]
    change 2 * (q.cnt.toNat - (q.j.toNat + 1 + 1)) + laterTransitions c q + 2 = _
    omega
  next hj =>
    rw [transitionsAfterSample, Nat.sub_eq_zero_of_le (Nat.le_of_not_lt hj), Nat.mul_zero, Nat.zero_add]
    split
    next hnext =>
      obtain ⟨hop, hsrc, hi⟩ := hnext
      have hi1 : (q.i + 1#16).toNat = q.i.toNat + 1 := by bv_omega
      rw [transitionsLeft_slice_sound (q := { q with i := q.i + 1#16, st := .slice }) rfl ⟨hop, hsrc⟩ (hi1 ▸ hi), hi1,
        laterTransitions, if_pos ⟨hop, hsrc⟩]
    next hlast =>
      rw [transitionsLeft_idle rfl, laterTransitions]
      split
      next hsound =>
        obtain ⟨hop, hsrc⟩ := hsound
        have hi : q.n.toNat ≤ q.i.toNat + 1 := Nat.le_of_not_lt fun h => hlast ⟨hop, hsrc, h⟩
        rw [Nat.sub_eq_zero_of_le hi, Nat.zero_mul]
      next => rfl

theorem tickEmit_transitionsLeft {s : State} (hst : s.seq.st = .emit) (hsmp : s.smpReady = true) (c : Cfg) :
    transitionsLeft c (tickEmit s).seq + 1 = transitionsLeft c s.seq := by
  have hseq : (tickEmit s).seq = afterAccept s.seq := by rw [tickEmit, if_pos hsmp]; rfl
  rw [hseq, afterAccept_transitionsLeft, transitionsLeft_emit hst]

theorem tickResp_transitionsLeft {s : State} (hst : s.seq.st = .resp) (hrsp : s.rspReady = true) (c : Cfg) :
    transitionsLeft c (tickResp s).seq + 1 = transitionsLeft c s.seq := by
  have hseq : (tickResp s).seq = { s.seq with st := .idle } := by rw [tickResp, if_pos hrsp]; rfl
  rw [hseq, transitionsLeft_idle rfl, transitionsLeft_resp hst]

/-! ### The run back to IDLE -/

/-- Nothing stands in the sequencer's way: no reset is requested, the sink and the host accept. -/
structure Unhindered (s : State) : Prop where
  rst : s.rst = false
  smpReady : s.smpReady = true
  rspReady : s.rspReady = true

/-- From `s` to `t` the command in progress went on: the inputs and what it comes to are the same. -/
structure WentOn (s t : State) : Prop where
  inputs : SameInputs s t
  completed : completed Config.cfg t = completed Config.cfg s

theorem WentOn.refl (s : State) : WentOn s s := ⟨.refl s, rfl⟩

theorem WentOn.trans {s t u : State} (h : WentOn s t) (h' : WentOn t u) : WentOn s u :=
  ⟨h.inputs.trans h'.inputs, h'.completed.trans h.completed⟩

theorem Unhindered.of_inputs {s t : State} (h : Unhindered s) (hin : SameInputs s t) : Unhindered t :=
  ⟨hin.rst.trans h.rst, hin.smpReady.trans h.smpReady, hin.rspReady.trans h.rspReady⟩

/-- Outside IDLE an unhindered step is one of the transitions that are left. -/
theorem step_takes_one_off {s : State} (h : Unhindered s) (hst : s.seq.st ≠ .idle) :
    ∃ t, step s = .next t ∧ WentOn s t ∧
      transitionsLeft Config.cfg t.seq + 1 = transitionsLeft Config.cfg s.seq := by
  cases hs : s.seq.st with
  | idle => exact absurd hs hst
  | resp =>
    exact ⟨_, step_resp h.rst hs, ⟨tickResp_sameInputs s, completed_tickResp hs _⟩,
      tickResp_transitionsLeft hs h.rspReady _⟩
  | slice =>
    exact ⟨_, step_slice h.rst hs, ⟨tickSlice_sameInputs _ s, completed_tickSlice hs⟩, tickSlice_transitionsLeft hs⟩
  | render =>
    exact ⟨_, step_render h.rst hs, ⟨tickRender_sameInputs _ s, completed_tickRender hs _⟩,
      tickRender_transitionsLeft hs _⟩
  | emit =>
    exact ⟨_, step_emit h.rst hs, ⟨tickEmit_sameInputs s, completed_tickEmit hs _⟩,
      tickEmit_transitionsLeft hs h.smpReady _⟩

theorem coreRun_succ {M : Host.Core} {s t : M.State} (h : M.step s = .next t) (k : Nat) :
    M.run (k + 1) s = M.run k t := by
  rw [Host.Core.run, h]

/-- After exactly the transitions that are left the sequencer is in IDLE. -/
theorem run_transitionsLeft {k : Nat} {s : State} (h : Unhindered s) (hk : transitionsLeft Config.cfg s.seq = k) :
    ∃ v : State, Host.Core.run Sys2Proof.core k s = .next v ∧ v.seq.st = .idle ∧ WentOn s v := by
  induction k generalizing s with
  | zero => exact ⟨s, rfl, idle_of_transitionsLeft_eq_zero hk, .refl s⟩
  | succ k ih =>
    have hst : s.seq.st ≠ .idle := fun hidle => by rw [transitionsLeft_idle hidle] at hk; contradiction
    obtain ⟨t, hstep, hon, hleft⟩ := step_takes_one_off h hst
    obtain ⟨v, hrun, hidle, hrest⟩ := ih (h.of_inputs hon.inputs) (by omega)
    exact ⟨v, (coreRun_succ (M := Sys2Proof.core) hstep k).trans hrun, hidle, hon.trans hrest⟩

/-! ### Right after the acceptance all the transitions of the command are left -/

theorem startRender_transitionsLeft {op : SeqOp} (hop : op ≠ .play) {n : Half} (hn : n ≠ 0#16) (c : Cfg) (s : State) :
    transitionsLeft c (startRender op n s).seq = 2 * n.toNat := by
  have hcnt : (n.setWidth 32).toNat = n.toNat := by rw [BitVec.toNat_setWidth, Nat.mod_eq_of_lt (by omega)]
  have hpos : 0 < (n.setWidth 32).toNat := by rw [hcnt]; bv_omega
  rw [startRender, State.withSeq_seq, transitionsLeft_render_zero rfl rfl hpos,
    laterTransitions_of_not_sound fun h => hop h.1, hcnt, Nat.add_zero]

theorem startPlay_transitionsLeft (src : Source) {n : Half} (hn : n ≠ 0#16) (s : State) :
    transitionsLeft Config.cfg (startPlay Config.cfg src n s).seq = transitions (.play src n) := by
  have hpos : 0 < n.toNat := by bv_omega
  rw [transitions, sampleCount]
  by_cases hsrc : src = .silence
  · have hrun : 0 < (BitVec.ofNat 32 (n.toNat * Config.cfg.sliceLen)).toNat := by
      rw [silentCount_toNat]; exact Nat.mul_pos hpos Config.cfg_valid.sliceLen_pos
    rw [startPlay, if_pos hsrc, State.withSeq_seq, transitionsLeft_render_zero rfl rfl hrun,
      laterTransitions_of_not_sound fun h => h.2 hsrc, silentCount_toNat, if_pos hsrc]
  · rw [startPlay, if_neg hsrc, State.withSeq_seq, transitionsLeft_slice_sound rfl ⟨rfl, by exact hsrc⟩ (by exact hpos),
      if_neg hsrc]
    change n.toNat * (1 + 2 * Config.cfg.sliceLen) = _
    ring

/-- A command that renders nothing is back in IDLE at once. -/
theorem SinkBlind.transitionsLeft_eq {f : State → State} (hf : SinkBlind f) {s : State} (hrsp : s.rspReady = true)
    (hst : s.seq.st = .idle) (c : Cfg) : transitionsLeft c (f s).seq = 0 :=
  transitionsLeft_idle (hf.idle s hrsp hst) c

theorem renderCommand_transitionsLeft {op : SeqOp} (hop : op ≠ .play) (k : Kind) (n : Half) {s : State}
    (hsmp : s.smpReady = false) (hst : s.seq.st = .idle) (c : Cfg) :
    transitionsLeft c (renderCommand c op k n s).seq = 2 * n.toNat := by
  by_cases hn : n = 0#16
  · subst hn; rw [renderCommand_zero, transitionsLeft_idle hst]; rfl
  · rw [renderCommand_busy hsmp c op k hn, startRender_transitionsLeft hop hn]

theorem playCommand_transitionsLeft (src : Source) (n : Half) {s : State} (hsmp : s.smpReady = false)
    (hst : s.seq.st = .idle) :
    transitionsLeft Config.cfg (playCommand Config.cfg src n s).seq = transitions (.play src n) := by
  by_cases hn : n = 0#16
  · subst hn; rw [playCommand_zero, transitionsLeft_idle hst, transitions, sampleCount]; simp
  · rw [playCommand_busy hsmp Config.cfg src hn, startPlay_transitionsLeft src hn]

theorem result_transitionsLeft (i : Instr) {s : State} (hsmp : s.smpReady = false) (hrsp : s.rspReady = true)
    (hst : s.seq.st = .idle) : transitionsLeft Config.cfg (result i s).seq = transitions i := by
  cases i with
  | nop => exact sinkBlind_id.transitionsLeft_eq hrsp hst _
  | wrl reg imm => exact (sinkBlind_wrl Config.cfg reg imm).transitionsLeft_eq hrsp hst _
  | wrh reg imm => exact (sinkBlind_wrh reg imm).transitionsLeft_eq hrsp hst _
  | rd reg => exact (sinkBlind_rd Config.cfg reg).transitionsLeft_eq hrsp hst _
  | play src n => exact playCommand_transitionsLeft src n hsmp hst
  | cenv src => exact (sinkBlind_cenv Config.cfg src).transitionsLeft_eq hrsp hst _
  | rform n => exact renderCommand_transitionsLeft (by decide) _ n hsmp hst _
  | rfric n => exact renderCommand_transitionsLeft (by decide) _ n hsmp hst _
  | rsil n => exact renderCommand_transitionsLeft (by decide) _ n hsmp hst _
  | reset => exact sinkBlind_resetBlock.transitionsLeft_eq hrsp hst _

/-- Two states with a ready sink and the same visible part differ in the sequencer's registers alone. -/
theorem eq_withSeq_of_visible_eq {s t : State} (hs : s.smpReady = true) (ht : t.smpReady = true)
    (h : visible s = visible t) : s = t.withSeq s.seq :=
  calc s = (s.withSmpReady true).withSeq s.seq := by rw [← hs]; rfl
    _ = (visible s).withSeq s.seq := rfl
    _ = (visible t).withSeq s.seq := by rw [h]
    _ = (t.withSmpReady true).withSeq s.seq := rfl
    _ = t.withSeq s.seq := by rw [← ht]; rfl

/-- Settles O53: the acceptance leaves exactly the transitions of the command, and they bring it to what the big-step form
does at once (`result_accepted`). -/
theorem sequencerAgreesWithBigStep : Obligations.SequencerAgreesWithBigStep := by
  intro i s t u hrst hst hsmp hrsp ht hu
  have hs : s.withSmpReady true = s := by rw [← hsmp]; rfl
  obtain ⟨hinputs, hcompletes⟩ := result_accepted hrsp hst i
  obtain rfl : result i (s.withSmpReady false) = t := by rw [exec_eq] at ht; injection ht
  obtain rfl : result i s = u := by rw [exec_eq] at hu; injection hu
  rw [hs] at hcompletes
  have hfree : Unhindered ((result i (s.withSmpReady false)).withSmpReady true) :=
    ⟨(hinputs false).rst.trans hrst, rfl, (hinputs false).rspReady.trans hrsp⟩
  obtain ⟨v, hrun, hidle, hon⟩ :=
    run_transitionsLeft hfree (result_transitionsLeft i (s := s.withSmpReady false) rfl hrsp hst)
  have hvis : visible v = visible (result i s) :=
    calc visible v = completed Config.cfg v := (completed_idle hidle _).symm
      _ = completed Config.cfg (result i (s.withSmpReady false)) := hon.completed
      _ = visible (result i s) := hcompletes
  have hv : v.smpReady = true := hon.inputs.smpReady
  have hready : (result i s).smpReady = true := by rw [← hs]; exact (hinputs true).smpReady
  exact ⟨v.seq, hidle, hrun.trans (congrArg _ (eq_withSeq_of_visible_eq hv hready hvis))⟩

end Sys2Proof.Machine

/-! PROOF. What the renderers emit (41_renderer.md R140 to R150). A run hands over, number m, the sample computed from the
state after m samples, and sets `OVF` if one of their sums does not fit. The state after m samples has each phase advanced
by m times its `FREQ`, so sample number m is the sum of the look-ups m + 1 samples from the start. -/

namespace Sys2Proof.Machine

open Sys2Proof Sys2Proof.Spec

/-! ### A run of any renderer -/

/-- The samples a run of `n` hands over, in order. -/
def runOutput (c : Cfg) (k : Kind) (n : Nat) (s : State) : List Byte :=
  (List.range n).map fun m => renderOut c k (samples c k m s)

theorem runOutput_length (c : Cfg) (k : Kind) (n : Nat) (s : State) : (runOutput c k n s).length = n := by
  rw [runOutput, List.length_map, List.length_range]

theorem runOutput_getElem? {m n : Nat} (h : m < n) (c : Cfg) (k : Kind) (s : State) :
    (runOutput c k n s)[m]? = some (renderOut c k (samples c k m s)) := by
  rw [runOutput, List.getElem?_map, List.getElem?_range h, Option.map_some]

theorem samples_samples (c : Cfg) (k : Kind) (n : Nat) (s : State) :
    (samples c k n s).samples = s.samples ++ runOutput c k n s := by
  induction n with
  | zero => rw [samples_zero, runOutput, List.range_zero, List.map_nil, List.append_nil]
  | succ n ih =>
    rw [samples_succ', sample_eq, State.withSamples_samples, ih, runOutput, runOutput, List.range_succ, List.map_append,
      List.append_assoc]
    rfl

/-- `OVF` is set exactly if it was set or some sum of the run does not fit (R143). -/
theorem samples_ovf_iff (c : Cfg) (k : Kind) (n : Nat) (s : State) :
    (samples c k n s).status.ovf = true ↔
      s.status.ovf = true ∨ ∃ m, m < n ∧ ovfOf c k (samples c k m s) = true := by
  induction n with
  | zero => simp
  | succ n ih =>
    rw [samples_succ', sample_ovf, Bool.or_eq_true, ih, Nat.exists_lt_succ_right, or_assoc]

/-- All a run of samples does, from what it does to the oscillators. -/
theorem samples_eq_of_osc {c : Cfg} {k : Kind} {n : Nat} {s : State} {v : Vec7 Osc} {w : Vec3 Fosc}
    (hosc : (samples c k n s).osc = v) (hfosc : (samples c k n s).fosc = w) :
    samples c k n s =
      { s with
        osc := v, fosc := w
        status := { s.status with ovf := (samples c k n s).status.ovf }
        samples := s.samples ++ runOutput c k n s } := by
  rw [← hosc, ← hfosc, ← samples_samples]
  exact samples_frame c k n s

/-! ### The oscillators after a run -/

theorem foscLater_zero (o : Fosc) : foscLater 0 o = o := by simp [foscLater]

/-- One more `FREQ` on a phase that is `n` of them ahead. -/
theorem phase_add_freq {w : Nat} (p f : BitVec w) (n : Nat) :
    p + BitVec.ofNat w (n * f.toNat) + f = p + BitVec.ofNat w ((n + 1) * f.toNat) := by
  rw [Nat.add_mul, Nat.one_mul, BitVec.ofNat_add, BitVec.ofNat_toNat, BitVec.setWidth_eq, BitVec.add_assoc]

theorem advance32_foscLater (n : Nat) (o : Fosc) : advance32 (foscLater n o) = foscLater (n + 1) o := by
  rw [advance32, foscLater, foscLater, phase_add_freq]

theorem samples_succ_osc (c : Cfg) (k : Kind) (n : Nat) (s : State) :
    (samples c k (n + 1) s).osc = oscAfter k (samples c k n s) := by
  rw [samples_succ', sample_eq]; rfl

theorem samples_succ_fosc (c : Cfg) (k : Kind) (n : Nat) (s : State) :
    (samples c k (n + 1) s).fosc = foscAfter k (samples c k n s) := by
  rw [samples_succ', sample_eq]; rfl

/-- A formant run advances every formant oscillator. -/
theorem samples_formant_osc (c : Cfg) (n : Nat) (s : State) :
    (samples c .formant n s).osc = s.osc.map (oscLater n) := by
  induction n with
  | zero => simp only [samples_zero, funext oscLater_zero, Vec7.map_id]
  | succ n ih =>
    rw [samples_succ_osc, oscAfter, ih, Vec7.map_map]
    simp only [advance16_oscLater]

/-- A fricative run advances `OSC[0]` and no other formant oscillator. -/
theorem samples_fricative_osc (c : Cfg) (n : Nat) (s : State) :
    (samples c .fricative n s).osc = s.osc.set 0 (oscLater n (s.osc.get 0)) := by
  rw [(samples_fricative_sameHarmonics c n s).osc_eq, samples_fundamental (by decide)]

theorem samples_fricative_fosc (c : Cfg) (n : Nat) (s : State) :
    (samples c .fricative n s).fosc = s.fosc.map (foscLater n) := by
  induction n with
  | zero => simp only [samples_zero, funext foscLater_zero, Vec3.map_id]
  | succ n ih =>
    rw [samples_succ_fosc, foscAfter, ih, Vec3.map_map]
    simp only [advance32_foscLater]

/-! ### The look-ups after a run -/

theorem oscLater_phase_toNat (m : Nat) (o : Osc) :
    (oscLater m o).phase.toNat = (o.phase.toNat + m * o.freq.toNat) % 2 ^ 16 := by
  rw [oscLater, BitVec.toNat_add, BitVec.toNat_ofNat, Nat.add_mod_mod]

theorem foscLater_phase_toNat (m : Nat) (o : Fosc) :
    (foscLater m o).phase.toNat = (o.phase.toNat + m * o.freq.toNat) % 2 ^ 32 := by
  rw [foscLater, BitVec.toNat_add, BitVec.toNat_ofNat, Nat.add_mod_mod]

/-- The look-up of an oscillator `m` samples on: the mute rule and the silent step both answer 0. -/
theorem oscOut_oscLater (m : Nat) (o : Osc) : oscOut Config.cfg (oscLater m o) = oscByte o m := by
  rw [oscOut, waveSample, buzzIndex, oscLater_phase_toNat, Nat.shiftRight_eq_div_pow, oscByte]
  change (if o.freq = 0#16 then 0#8 else if ampOf o.wave = 0#6 then 0#8 else _) = _
  by_cases hfreq : o.freq = 0#16
  · rw [if_pos hfreq, if_pos (.inl hfreq)]
  · rw [if_neg hfreq]
    by_cases hamp : ampOf o.wave = 0#6
    · rw [if_pos hamp, if_pos (.inr hamp)]
    · rw [if_neg hamp, if_neg (by simp only [hfreq, hamp, or_self, not_false_eq_true])]
      rfl

theorem noiseRaw_foscLater (m : Nat) (o : Fosc) : noiseRaw Config.cfg (foscLater m o) = noiseByte o m := by
  rw [noiseRaw, noiseIndex_eq, foscLater_phase_toNat, noiseByte]

theorem foscOut_foscLater_toInt (m : Nat) (o : Fosc) :
    (foscOut Config.cfg (foscLater m o)).toInt = if o.freq = 0#32 then 0 else (noiseByte o m).toInt := by
  rw [foscOut, noiseRaw_foscLater]
  change (if o.freq = 0#32 then 0#8 else _).toInt = _
  split <;> rfl

/-! ### The sums after a run -/

/-- The sum of the next formant sample is that of the bank one sample on. -/
theorem formantAcc_samples (m : Nat) (s : State) :
    formantAcc Config.cfg (samples Config.cfg .formant m s) = formantSum s (m + 1) := by
  change bankSum Config.cfg (oscAfter .formant (samples Config.cfg .formant m s)) = _
  rw [← samples_succ_osc, samples_formant_osc, bankSum_eq_sum, formantSum]
  simp only [Vec7.get_map, oscOut_oscLater]

/-- The sum of the next fricative sample is that of the bank one sample on. -/
theorem fricativeAcc_samples (m : Nat) (s : State) :
    fricativeAcc Config.cfg (samples Config.cfg .fricative m s) = fricativeSum s (m + 1) := by
  change fricSum Config.cfg ((oscAfter .fricative (samples Config.cfg .fricative m s)).get 0)
    (foscAfter .fricative (samples Config.cfg .fricative m s)) = _
  rw [← samples_succ_osc, ← samples_succ_fosc, samples_fundamental (by decide), samples_fricative_fosc, fricSum_eq_sum,
    fricativeSum]
  simp only [Vec3.get_map, oscOut_oscLater, noiseRaw_foscLater, foscOut_foscLater_toInt]

/-! ### The commands -/

/-- Settles O16: the run's frame, samples and flag, with the sums read off the start. -/
theorem rformRendersTheFormantBank : Obligations.RformRendersTheFormantBank := by
  intro n s hready
  refine ⟨samples Config.cfg .formant n.toNat s, runOutput Config.cfg .formant n.toNat s, ?_,
    samples_eq_of_osc (samples_formant_osc ..) (samples_formant_fosc ..), runOutput_length .., fun m hm => ?_, ?_⟩
  · rw [exec_eq, result, renderCommand_ready hready]
  · rw [runOutput_getElem? hm, renderOut, formantAcc_samples]
  · simp only [samples_ovf_iff, ovfOf, formantAcc_samples, overflows_iff]

/-- Settles O17: the run's frame, samples and flag, with the sums read off the start. -/
theorem rfricRendersTheFricativeBank : Obligations.RfricRendersTheFricativeBank := by
  intro n s hready
  refine ⟨samples Config.cfg .fricative n.toNat s, runOutput Config.cfg .fricative n.toNat s, ?_,
    samples_eq_of_osc (samples_fricative_osc ..) (samples_fricative_fosc ..), runOutput_length .., fun m hm => ?_, ?_⟩
  · rw [exec_eq, result, renderCommand_ready hready]
  · rw [runOutput_getElem? hm, renderOut, fricativeAcc_samples]
  · simp only [samples_ovf_iff, ovfOf, fricativeAcc_samples, overflows_iff]

/-- The silence generator's sample is 0 and changes nothing else (R150). -/
theorem sample_silence (c : Cfg) (s : State) : sample c .silence s = emit 0#8 s := rfl

theorem samples_silence (c : Cfg) (n : Nat) (s : State) :
    samples c .silence n s = s.withSamples (s.samples ++ List.replicate n 0#8) := by
  induction n with
  | zero => rw [samples_zero, List.replicate_zero, List.append_nil]; rfl
  | succ n ih =>
    rw [samples_succ', ih, sample_silence, emit_eq, State.withSamples_samples, List.append_assoc,
      ← List.replicate_succ']
    rfl

/-- Settles O18. -/
theorem rsilEmitsZeros : Obligations.RsilEmitsZeros := by
  intro n s hready
  rw [exec_eq, result, renderCommand_ready hready, samples_silence]
  rfl

/-- Settles O31: `PLAY silence` is one run of the silence generator. -/
theorem playSilenceEmitsZeros : Obligations.PlaySilenceEmitsZeros := by
  intro n s hready
  rw [exec_eq, result, playCommand_ready hready, play_silence, samples_silence]
  rfl

/-- Settles O19: the branch for a count of 0 is taken before the sink is looked at. -/
theorem zeroCountDoesNothing : Obligations.ZeroCountDoesNothing := by
  intro s
  refine ⟨?_, ?_, ?_, fun src => ?_⟩
  · rw [exec_eq, result, renderCommand_zero]
  · rw [exec_eq, result, renderCommand_zero]
  · rw [exec_eq, result, renderCommand_zero]
  · rw [exec_eq, result, playCommand_zero]

end Sys2Proof.Machine

/-! PROOF. How many samples a command emits (43_segment_player.md R192, R201): the word and `SLICE_LEN` alone decide. -/

namespace Sys2Proof.Machine

open Sys2Proof Sys2Proof.Spec

/-- From `s` to `t` exactly `n` samples were handed over behind the earlier ones. -/
def EmittedExactly (n : Nat) (s t : State) : Prop := ∃ out, t.samples = s.samples ++ out ∧ out.length = n

theorem EmittedExactly.of_eq {s t : State} (h : t.samples = s.samples) : EmittedExactly 0 s t :=
  ⟨[], by rw [h, List.append_nil], rfl⟩

/-- Samples that only grow are counted by their number before and after. -/
theorem OnlySamples.emittedExactly {s t : State} {n : Nat} (h : OnlySamples s t)
    (hlen : t.samples.length = s.samples.length + n) : EmittedExactly n s t := by
  obtain ⟨out, hout⟩ := h.samples
  rw [← hout, List.length_append] at hlen
  exact ⟨out, hout.symm, by omega⟩

theorem play_length (c : Cfg) (src : Source) (n : Half) (s : State) :
    (play c src n s).samples.length = s.samples.length + n.toNat * c.sliceLen := by
  by_cases hsrc : src = .silence
  · rw [hsrc, play_silence, samples_length]
  · rw [play_sound hsrc, playSlices_length]

theorem renderCommand_emittedExactly {s : State} (h : s.smpReady = true) (c : Cfg) (op : SeqOp) (k : Kind) (n : Half) :
    EmittedExactly n.toNat s (renderCommand c op k n s) := by
  rw [renderCommand_ready h]
  exact (samples_onlySamples ..).emittedExactly (samples_length ..)

theorem playCommand_emittedExactly {s : State} (h : s.smpReady = true) (c : Cfg) (src : Source) (n : Half) :
    EmittedExactly (n.toNat * c.sliceLen) s (playCommand c src n s) := by
  rw [playCommand_ready h]
  exact (play_onlySamples ..).emittedExactly (play_length ..)

theorem cenv_samples (c : Cfg) (src : Source) (s : State) : (cenv c src s).samples = s.samples := by
  rw [cenv_frame]; rfl

theorem result_emittedExactly (i : Instr) {s : State} (h : s.smpReady = true) :
    EmittedExactly (sampleCount i) s (result i s) := by
  cases i with
  | nop => exact .of_eq rfl
  | wrl reg imm => exact .of_eq (wrl_onlyResponse _ reg imm s).samples
  | wrh reg imm => exact .of_eq (wrh_onlyResponse reg imm s).samples
  | rd reg => exact .of_eq (rd_onlyResponse _ reg s).samples
  | play src n => exact playCommand_emittedExactly h _ src n
  | cenv src => exact .of_eq (cenv_samples _ src s)
  | rform n => exact renderCommand_emittedExactly h _ _ _ n
  | rfric n => exact renderCommand_emittedExactly h _ _ _ n
  | rsil n => exact renderCommand_emittedExactly h _ _ _ n
  | reset => exact .of_eq rfl

/-- Settles O37. -/
theorem sampleCountDependsOnTheWordAlone : Obligations.SampleCountDependsOnTheWordAlone := by
  intro i s hready
  obtain ⟨out, hout, hlen⟩ := result_emittedExactly i hready
  exact ⟨result i s, out, exec_eq i s, hout, hlen⟩

end Sys2Proof.Machine

/-! PROOF. The interpolator (43_segment_player.md R184 to R186): zero substitution, the glide and the midpoint; and, with
equal end points, segments that can be split (R191 (e)). -/

namespace Sys2Proof.Machine

open Sys2Proof

/-! ### The end points -/

theorem substStart_idem (a b : Half) : substStart (substStart a b) (substEnd a b) = substStart a b := by
  unfold substStart substEnd
  by_cases ha : a = 0#16 <;> by_cases hb : b = 0#16 <;> simp [ha, hb]

theorem substEnd_idem (a b : Half) : substEnd (substStart a b) (substEnd a b) = substEnd a b := by
  unfold substStart substEnd
  by_cases ha : a = 0#16 <;> by_cases hb : b = 0#16 <;> simp [ha, hb]

/-- Settles O28. -/
theorem zeroEndPointsAreSubstituted : Obligations.ZeroEndPointsAreSubstituted :=
  fun a b => ⟨rfl, rfl, substStart_eq_zero_iff a b, substStart_idem a b, substEnd_idem a b⟩

/-! ### The glide -/

section
variable {s e n i : Nat}

theorem interp_up (hn : 2 ≤ n) (h : s ≤ e) : interp s e n i = s + (e - s) * i / (n - 1) := by
  rw [interp, if_neg (by omega), if_pos h]

theorem interp_down (hn : 2 ≤ n) (h : e < s) : interp s e n i = s - (s - e) * i / (n - 1) := by
  rw [interp, if_neg (by omega), if_neg (by omega)]

theorem interp_first (hn : 2 ≤ n) : interp s e n 0 = s := by
  rw [interp, if_neg (by omega), Nat.mul_zero, Nat.mul_zero, Nat.zero_div, Nat.add_zero, Nat.sub_zero, ite_self]

/-- The offset from `S` is at most the whole way: slice `i` is one of the `n`. -/
theorem glide_offset_le (hi : i < n) (d : Nat) : d * i / (n - 1) ≤ d :=
  Nat.div_le_of_le_mul (by rw [Nat.mul_comm]; exact Nat.mul_le_mul_right d (by omega))

theorem interp_between (hn : 2 ≤ n) (hi : i < n) : min s e ≤ interp s e n i ∧ interp s e n i ≤ max s e := by
  obtain h | h := Nat.lt_or_ge e s
  · have hoffset := glide_offset_le hi (s - e)
    rw [interp_down hn h]
    generalize (s - e) * i / (n - 1) = offset at hoffset ⊢
    omega
  · have hoffset := glide_offset_le hi (e - s)
    rw [interp_up hn h]
    generalize (e - s) * i / (n - 1) = offset at hoffset ⊢
    omega

end

/-- Settles O29. -/
theorem glideReachesBothEnds : Obligations.GlideReachesBothEnds :=
  fun s e _ _ hn hi => ⟨interp_up hn, interp_down hn, interp_first hn, interp_last hn s e, interp_between hn hi⟩

theorem interp_single (s e i : Nat) : interp s e 1 i = (s + e) / 2 := if_pos rfl

/-- Settles O30: half of a 17-bit sum has 16 bits. -/
theorem singleSliceUsesTheMidpoint : Obligations.SingleSliceUsesTheMidpoint :=
  fun s e => ⟨interp_single s e 0, fun hs he => by rw [interp_single]; omega⟩

/-! ### Constant segments -/

/-- Between equal end points every timeslice has their value, whatever the number of timeslices. -/
theorem interp_const (a n i : Nat) : interp a a n i = a := by
  rw [interp, if_pos (Nat.le_refl a), Nat.sub_self, Nat.zero_mul, Nat.zero_div, Nat.add_zero]
  split <;> omega

theorem substStart_self (a : Half) : substStart a a = a := ite_self a

theorem substEnd_self (a : Half) : substEnd a a = a := ite_self a

/-- The frequencies of every timeslice of a constant segment. -/
def constantFreqs (src : Source) (f : Vec4 Half) : Vec4 Half :=
  .ofFn fun ch => if src = .aspiration ∧ ch = 0 then 0#16 else f.get ch

theorem sliceFreqs_latch_const {s : State} (h : s.start = s.stop) (src : Source) (n : Half) (i : Nat) :
    sliceFreqs (latch src n s) i = constantFreqs src s.stop := by
  refine Vec4.ext_get fun ch => ?_
  rw [sliceFreqs_get, latch_start_get, latch_stop_get, h, substStart_self, substEnd_self, interp_const, BitVec.ofNat_toNat,
    BitVec.setWidth_eq, constantFreqs, Vec4.get_ofFn]
  rfl

/-- A timeslice depends on its segment through the source and the timeslice's frequencies alone. -/
theorem playSlice_congr {g g' : Segment} {i i' : Nat} (hsrc : g.src = g'.src) (hfreqs : sliceFreqs g i = sliceFreqs g' i')
    (c : Cfg) (s : State) : playSlice c g i s = playSlice c g' i' s := by
  rw [playSlice, playSlice, beginSlice, beginSlice, hsrc, hfreqs]

/-- So two constant segments with the same source and the same frequencies play the same timeslices. -/
theorem playSlices_congr {g g' : Segment} (hsrc : g.src = g'.src) (hfreqs : ∀ i i', sliceFreqs g i = sliceFreqs g' i')
    (c : Cfg) (i i' k : Nat) (s : State) : playSlices c g i k s = playSlices c g' i' k s := by
  induction k generalizing i i' s with
  | zero => rfl
  | succ k ih => rw [playSlices_succ, playSlices_succ, playSlice_congr hsrc (hfreqs i i'), ih (i + 1) (i' + 1)]

/-- A sounding constant segment is `n` timeslices of any segment with its source and its frequencies. -/
theorem play_const {g : Segment} {s : State} (hsrc : g.src ≠ .silence) (hconst : s.start = s.stop)
    (hfreqs : ∀ i, sliceFreqs g i = constantFreqs g.src s.stop) (c : Cfg) (i : Nat) (n : Half) :
    play c g.src n s = playSlices c g i n.toNat s := by
  rw [play_sound hsrc]
  exact playSlices_congr (g := latch g.src n s) (g' := g) rfl
    (fun j j' => (sliceFreqs_latch_const hconst g.src n j).trans (hfreqs j').symm) c _ _ _ s

theorem play_add {m n : Half} {s : State} (hconst : s.start = s.stop) (hfits : m.toNat + n.toNat < 2 ^ 16) (c : Cfg)
    (src : Source) : play c src (m + n) s = play c src n (play c src m s) := by
  have hadd : (m + n).toNat = m.toNat + n.toNat := BitVec.toNat_add_of_lt hfits
  by_cases hsrc : src = .silence
  · rw [hsrc, play_silence, play_silence, play_silence, hadd, Nat.add_mul, samples_add]
  · have hframe := play_soundFrame c src m s
    have hconst' : (play c src m s).start = (play c src m s).stop := by rw [hframe.start, hframe.stop, hconst]
    have hfreqs := sliceFreqs_latch_const hconst src (m + n)
    have hfreqs' (i : Nat) : sliceFreqs (latch src (m + n) s) i = constantFreqs src (play c src m s).stop := by
      rw [hframe.stop]; exact hfreqs i
    calc play c src (m + n) s
      _ = playSlices c (latch src (m + n) s) (0 + m.toNat) n.toNat
            (playSlices c (latch src (m + n) s) 0 m.toNat s) := by rw [play_sound hsrc, hadd, playSlices_add]
      _ = playSlices c (latch src (m + n) s) (0 + m.toNat) n.toNat (play c src m s) :=
            congrArg _ (play_const hsrc hconst hfreqs c 0 m).symm
      _ = play c src n (play c src m s) := (play_const hsrc hconst' hfreqs' c _ n).symm

/-- Settles O35: the first segment leaves the end points, and the sink's level, as they were. -/
theorem constantSegmentsSplit : Obligations.ConstantSegmentsSplit := by
  intro src m n s t hready hconst hfits ht
  have hm : result (.play src m) s = play Config.cfg src m s := playCommand_ready hready ..
  obtain rfl : play Config.cfg src m s = t := by rw [exec_eq, hm] at ht; injection ht
  have hready' : (play Config.cfg src m s).smpReady = true := (play_sameInputs ..).smpReady.trans hready
  rw [exec_eq, exec_eq, result, result, playCommand_ready hready, playCommand_ready hready',
    play_add hconst hfits]

end Sys2Proof.Machine

/-! PROOF. Two rows of the sequencer's table (43_segment_player.md R197): the waits, and the transition out of SLICE. -/

namespace Sys2Proof.Machine

open Sys2Proof

theorem tickEmit_busy {s : State} (h : s.smpReady = false) : tickEmit s = s := by
  rw [tickEmit, h, if_neg Bool.false_ne_true]

theorem tickResp_busy {s : State} (h : s.rspReady = false) : tickResp s = s := by
  rw [tickResp, h, if_neg Bool.false_ne_true]

theorem tickIdle_empty {s : State} (h : s.cmds = []) : tickIdle s = .next s := by
  rw [tickIdle, h]

/-- Settles O48: the three waits. -/
theorem waitingChangesNothing : Obligations.WaitingChangesNothing := by
  refine fun s hrst => ⟨fun hst hsmp => ?_, fun hst hrsp => ?_, fun hst hcmds => ?_⟩
  · rw [step_emit hrst hst, tickEmit_busy hsmp]
  · rw [step_resp hrst hst, tickResp_busy hrsp]
  · rw [step_idle hrst hst, tickIdle_empty hcmds]

/-- Settles O49: but for the sequencer's registers the transition is the start of the timeslice (R188), which leaves
those registers as they were. -/
theorem sliceTransition : Obligations.SliceTransition := by
  intro s hrst hst
  refine ⟨tickSlice Config.cfg s, step_slice hrst hst, rfl, ?_⟩
  have hseq := (beginSlice_soundFrame Config.cfg (seqSegment s.seq) s.seq.i.toNat s).seq
  calc exec (.cenv s.seq.src) (s.withCur (sliceFreqs (seqSegment s.seq) s.seq.i.toNat))
    _ = .next (beginSlice Config.cfg (seqSegment s.seq) s.seq.i.toNat s) := exec_eq _ _
    _ = .next ((beginSlice Config.cfg (seqSegment s.seq) s.seq.i.toNat s).withSeq
          (beginSlice Config.cfg (seqSegment s.seq) s.seq.i.toNat s).seq) := by rw [State.withSeq_self]
    _ = .next ((tickSlice Config.cfg s).withSeq s.seq) := by rw [hseq]; rfl

end Sys2Proof.Machine

/-! PROOF. The registers as the host reads them (20_memory.md R61; 44_host_access.md R213): the value under a register's
number is the word its read answers, and a reserved number has none. -/

namespace Sys2Proof.Machine

open Sys2Proof Sys2Proof.Spec

theorem ctrlWord_toNat (k : Ctrl) : (ctrlWord k).toNat = k.psync.toNat + 2 * k.timbre.toNat := by
  obtain ⟨psync, timbre⟩ := k
  revert psync timbre; decide

theorem statusWord_toNat (k : Status) :
    (statusWord k).toNat = k.ill.toNat + 2 * k.ovf.toNat + 16 * k.cause.toNat := by
  obtain ⟨ill, ovf, cause⟩ := k
  revert ill ovf cause; decide

/-- Zero-extension keeps the number. -/
theorem zext_toNat {w : Nat} (hw : w ≤ 32) (x : BitVec w) : (x.setWidth 32).toNat = x.toNat :=
  BitVec.toNat_setWidth_of_le hw

/-- The value the register map lists under a register's number is the word the register reads as. -/
theorem regValue_regNumber (s : State) (r : Reg) :
    regValue s (regNumber r).toNat = some (readReg Config.cfg r s).toNat := by
  cases r with
  | ctrl => exact congrArg some (ctrlWord_toNat _).symm
  | status => exact congrArg some (statusWord_toNat _).symm
  | sliceLen => rw [readReg, sliceLen_toNat]; exact regValue_sliceLen s
  | badcmd => rfl
  | start ch | stop ch | cur ch => rw [readReg, zext_toNat (by decide)]; fin_cases ch <;> rfl
  | oscFreq j | oscPhase j | oscWave j => rw [readReg, zext_toNat (by decide)]; fin_cases j <;> rfl
  | foscFreq k | foscPhase k => fin_cases k <;> rfl

theorem regValue_reserved {n : Nat} (h : Reserved n) (s : State) : regValue s n = none := if_pos h

/-- A number that is not reserved is a register's. -/
theorem exists_regNumber_of_not_reserved {n : Nat} (h : ¬Reserved n) : ∃ r, (regNumber r).toNat = n := by
  have hbyte : (BitVec.ofNat 8 n).toNat = n := toNat_ofNat_byte (by omega)
  cases hr : regOf (BitVec.ofNat 8 n) with
  | none => exact absurd (hbyte ▸ (regOf_eq_none_iff _).mp hr) h
  | some r => exact ⟨r, by rw [regNumber_of_regOf hr, hbyte]⟩

/-- A number with a value is a register's, and the value is what the register reads as. -/
theorem reg_of_regValue {s : State} {reg : BitVec 8} {v : Nat} (h : regValue s reg.toNat = some v) :
    ∃ r, reg = regNumber r ∧ v = (readReg Config.cfg r s).toNat := by
  have hnamed : ¬Reserved reg.toNat := fun hres => by rw [regValue_reserved hres] at h; contradiction
  obtain ⟨r, hr⟩ := exists_regNumber_of_not_reserved hnamed
  rw [← hr, regValue_regNumber] at h
  exact ⟨r, (BitVec.eq_of_toNat_eq hr).symm, (Option.some.inj h).symm⟩

/-- When all registers but one read as before, so do all numbers but that register's. -/
theorem regValue_eq_of_readReg {s t : State} {r : Reg}
    (h : ∀ r', r' ≠ r → readReg Config.cfg r' t = readReg Config.cfg r' s) {n : Nat} (hn : n ≠ (regNumber r).toNat) :
    regValue t n = regValue s n := by
  by_cases hres : Reserved n
  · rw [regValue_reserved hres, regValue_reserved hres]
  · obtain ⟨r', rfl⟩ := exists_regNumber_of_not_reserved hres
    have hne : r' ≠ r := fun heq => hn (by rw [heq])
    rw [regValue_regNumber, regValue_regNumber, h r' hne]

/-! ### Reading after a write of one element of a register file -/

section
variable (c : Cfg) (s : State) {r : Reg}

theorem readReg_set_start {ch : Fin 4} (hr : r ≠ .start ch) (x : Half) :
    readReg c r (s.withStart (s.start.set ch x)) = readReg c r s := by
  cases r with
  | start i => rw [readReg, State.withStart_start, Vec4.get_set, if_neg fun h => hr (congrArg _ h)]; rfl
  | _ => rfl

theorem readReg_set_stop {ch : Fin 4} (hr : r ≠ .stop ch) (x : Half) :
    readReg c r (s.withStop (s.stop.set ch x)) = readReg c r s := by
  cases r with
  | stop i => rw [readReg, State.withStop_stop, Vec4.get_set, if_neg fun h => hr (congrArg _ h)]; rfl
  | _ => rfl

theorem readReg_set_cur {ch : Fin 4} (hr : r ≠ .cur ch) (x : Half) :
    readReg c r (s.withCur (s.cur.set ch x)) = readReg c r s := by
  cases r with
  | cur i => rw [readReg, State.withCur_cur, Vec4.get_set, if_neg fun h => hr (congrArg _ h)]; rfl
  | _ => rfl

/-- A field that a write of one element keeps, the whole register file keeps. -/
theorem vec7_field_set {α β : Type} {v : Vec7 α} {i j : Fin 7} {a : α} {field : α → β}
    (h : i = j → field a = field (v.get j)) : field ((v.set j a).get i) = field (v.get i) := by
  rw [Vec7.get_set]
  split
  next hij => rw [h hij, hij]
  next => rfl

theorem vec3_field_set {α β : Type} {v : Vec3 α} {i j : Fin 3} {a : α} {field : α → β}
    (h : i = j → field a = field (v.get j)) : field ((v.set j a).get i) = field (v.get i) := by
  rw [Vec3.get_set]
  split
  next hij => rw [h hij, hij]
  next => rfl

/-- After a write of one formant oscillator, the registers it keeps there and all others read as before. -/
theorem readReg_set_osc {j : Fin 7} {o : Osc} (hfreq : r = .oscFreq j → o.freq = (s.osc.get j).freq)
    (hphase : r = .oscPhase j → o.phase = (s.osc.get j).phase) (hwave : r = .oscWave j → o.wave = (s.osc.get j).wave) :
    readReg c r (s.withOsc (s.osc.set j o)) = readReg c r s := by
  cases r with
  | oscFreq i => exact congrArg (BitVec.setWidth 32) (vec7_field_set fun h => hfreq (congrArg _ h))
  | oscPhase i => exact congrArg (BitVec.setWidth 32) (vec7_field_set fun h => hphase (congrArg _ h))
  | oscWave i => exact congrArg (BitVec.setWidth 32) (vec7_field_set fun h => hwave (congrArg _ h))
  | _ => rfl

/-- After a write of one fricative oscillator, the register it keeps there and all others read as before. -/
theorem readReg_set_fosc {k : Fin 3} {o : Fosc} (hfreq : r = .foscFreq k → o.freq = (s.fosc.get k).freq)
    (hphase : r = .foscPhase k → o.phase = (s.fosc.get k).phase) :
    readReg c r (s.withFosc (s.fosc.set k o)) = readReg c r s := by
  cases r with
  | foscFreq i => exact vec3_field_set (field := Fosc.freq) fun h => hfreq (congrArg _ h)
  | foscPhase i => exact vec3_field_set (field := Fosc.phase) fun h => hphase (congrArg _ h)
  | _ => rfl

end

end Sys2Proof.Machine

/-! PROOF. The writes of the host (44_host_access.md R211, R212). Where no check refuses it, a `WRL` or `WRH` writes one
register, and what it wrote is what the register reads as. -/

namespace Sys2Proof.Machine

open Sys2Proof Sys2Proof.Spec

/-! ### The checks on a write, by the word's cause code -/

/-- The fields of the word of a `WRL` (30_encoding.md R91). -/
theorem wrlWord_fields (reg : BitVec 8) (imm : Half) :
    wrlWord reg imm / 2 ^ 28 = 1 ∧ wrlWord reg imm / 2 ^ 20 % 256 = reg.toNat ∧
      wrlWord reg imm % 2 ^ 16 = imm.toNat := by
  rw [wrlWord]; omega

/-- The fields of the word of a `WRH` (30_encoding.md R91). -/
theorem wrhWord_fields (reg : BitVec 8) (imm : Half) :
    wrhWord reg imm / 2 ^ 28 = 2 ∧ wrhWord reg imm / 2 ^ 20 % 256 = reg.toNat := by
  rw [wrhWord]; omega

/-- What an executed word passed: the check of the access and that of the value (60_exceptions.md R233 (4), (5)). -/
theorem wordCause_eq_zero {a w : Nat} (h : wordCause a w = 0) :
    ¬((w / 2 ^ 28 = 0x1 ∧ (w / 2 ^ 20 % 256 = 0x02 ∨ w / 2 ^ 20 % 256 = 0x03)) ∨
      (w / 2 ^ 28 = 0x2 ∧ w / 2 ^ 20 % 256 < 0x40)) ∧
    ¬(w / 2 ^ 28 = 0x1 ∧
      ((w / 2 ^ 20 % 256 = 0x00 ∧ w % 2 ^ 16 / 8 ≠ 0) ∨ (w / 2 ^ 20 % 256 = 0x01 ∧ w % 2 ^ 16 / 4 ≠ 0) ∨
        (WaveNumber (w / 2 ^ 20 % 256) ∧ (w % 2 ^ 16 / 256 ≠ 0 ∨ a < w % 64)))) := by
  unfold wordCause at h
  iterate 3
    split at h
    · contradiction
  split at h
  · contradiction
  next haccess =>
    split at h
    · contradiction
    next hvalue => exact ⟨haccess, hvalue⟩

/-- The bits of a word from bit `i` on are 0 when the word is below 2^i. -/
theorem upper_eq_zero_iff {w i : Nat} (hi : i ≤ w) (x : BitVec w) :
    x.extractLsb' i (w - i) = 0#(w - i) ↔ x.toNat / 2 ^ i = 0 := by
  have hx := topBits_lt (Nat.sub_le w i) x
  rw [Nat.sub_sub_self hi] at hx
  rw [← BitVec.toNat_inj, BitVec.extractLsb'_toNat, Nat.shiftRight_eq_div_pow, Nat.mod_eq_of_lt hx]
  rfl

section
variable {c : Cfg} {imm : Half}

theorem lowWriteCause_ctrl_iff : lowWriteCause c .ctrl imm = none ↔ imm.toNat / 2 ^ 3 = 0 := by
  simp only [lowWriteCause, ite_eq_left_iff, reduceCtorEq, imp_false, not_not]
  exact upper_eq_zero_iff (i := 3) (by decide) imm

theorem lowWriteCause_status_iff : lowWriteCause c .status imm = none ↔ imm.toNat / 2 ^ 2 = 0 := by
  simp only [lowWriteCause, ite_eq_left_iff, reduceCtorEq, imp_false, not_not]
  exact upper_eq_zero_iff (i := 2) (by decide) imm

theorem lowWriteCause_oscWave_iff {j : Fin 7} :
    lowWriteCause c (.oscWave j) imm = none ↔ imm.toNat / 2 ^ 8 = 0 ∧ imm.toNat % 64 ≤ c.ampMax := by
  simp only [lowWriteCause, ite_eq_left_iff, reduceCtorEq, imp_false, not_not]
  exact and_congr (upper_eq_zero_iff (i := 8) (by decide) imm) (by rw [BitVec.extractLsb'_toNat]; rfl)

end

/-- A `WRL` whose word has no cause is refused by no check on the register's access or on the value. -/
theorem lowWriteCause_eq_none {r : Reg} {imm : Half}
    (h : wordCause Config.cfg.ampMax (wrlWord (regNumber r) imm) = 0) : lowWriteCause Config.cfg r imm = none := by
  obtain ⟨hop, hreg, himm⟩ := wrlWord_fields (regNumber r) imm
  obtain ⟨haccess, hvalue⟩ := wordCause_eq_zero h
  rw [hop, hreg] at haccess hvalue
  rw [himm] at hvalue
  cases r with
  | sliceLen => exact absurd (.inl ⟨rfl, .inl rfl⟩) haccess
  | badcmd => exact absurd (.inl ⟨rfl, .inr rfl⟩) haccess
  | ctrl =>
    have hnum : (regNumber .ctrl).toNat = 0x00 := rfl
    exact lowWriteCause_ctrl_iff.mpr (by omega)
  | status =>
    have hnum : (regNumber .status).toNat = 0x01 := rfl
    exact lowWriteCause_status_iff.mpr (by omega)
  | oscWave j =>
    have hnum : (regNumber (.oscWave j)).toNat = 0x22 + 4 * j.val := toNat_ofNat_byte (by omega)
    exact lowWriteCause_oscWave_iff.mpr (by omega)
  | _ => rfl

/-- A `WRH` whose word has no cause is of a register with a high half. -/
theorem wide_of_wordCause {reg : BitVec 8} {a : Nat} {imm : Half} (h : wordCause a (wrhWord reg imm) = 0) :
    0x40 ≤ reg.toNat := by
  obtain ⟨hop, hreg⟩ := wrhWord_fields reg imm
  obtain ⟨haccess, -⟩ := wordCause_eq_zero h
  rw [hop, hreg] at haccess
  omega

/-! ### The register written -/

/-- Only the fricative oscillators' registers have a high half (20_memory.md R70). -/
theorem wide_cases {r : Reg} (h : 0x40 ≤ (regNumber r).toNat) : ∃ k, r = .foscFreq k ∨ r = .foscPhase k := by
  cases r with
  | foscFreq k => exact ⟨k, .inl rfl⟩
  | foscPhase k => exact ⟨k, .inr rfl⟩
  | _ => simp only [regNumber, BitVec.toNat_ofNat] at h; omega

/-- The number of a 32-bit register whose low half was written (R211). -/
theorem low_written_toNat (x : Word) (imm : Half) :
    (x.extractLsb' 16 16 ++ imm).toNat = x.toNat / 2 ^ 16 * 2 ^ 16 + imm.toNat := by
  rw [BitVec.toNat_append, ← Nat.shiftLeft_add_eq_or_of_lt imm.isLt, BitVec.extractLsb'_toNat,
    Nat.shiftRight_eq_div_pow, Nat.shiftLeft_eq]
  omega

/-- The number of a 32-bit register whose high half was written (R212). -/
theorem high_written_toNat (x : Word) (imm : Half) :
    (imm ++ x.extractLsb' 0 16).toNat = imm.toNat * 2 ^ 16 + x.toNat % 2 ^ 16 := by
  rw [BitVec.toNat_append, ← Nat.shiftLeft_add_eq_or_of_lt (BitVec.isLt _), BitVec.extractLsb'_toNat, Nat.shiftLeft_eq]
  rfl

/-- A `WRL` sets the whole of a register without a high half (R211): what its checks leave of the immediate fits. -/
theorem readReg_writeLow_narrow {r : Reg} {imm : Half} (hr : r ≠ .status) (hnarrow : (regNumber r).toNat < 0x40)
    (hcause : lowWriteCause Config.cfg r imm = none) (s : State) :
    (readReg Config.cfg r (writeLow r imm s)).toNat = imm.toNat := by
  cases r with
  | ctrl =>
    have himm : imm.toNat / 2 ^ 3 = 0 := lowWriteCause_ctrl_iff.mp hcause
    have hpsync : (imm.getLsbD 0).toNat = imm.toNat % 2 := by
      rw [BitVec.getLsbD, Nat.toNat_testBit, Nat.pow_zero, Nat.div_one]
    have htimbre : (imm.extractLsb' 1 2).toNat = imm.toNat / 2 % 4 := by
      rw [BitVec.extractLsb'_toNat, Nat.shiftRight_eq_div_pow]
    rw [readReg, writeLow, State.withCtrl_ctrl, ctrlWord_toNat, hpsync, htimbre]
    omega
  | status => exact absurd rfl hr
  | sliceLen | badcmd => contradiction
  | start ch | stop ch | cur ch =>
    simp only [readReg, writeLow, State.withStart_start, State.withStop_stop, State.withCur_cur, Vec4.get_set, if_true]
    exact zext_toNat (by decide) imm
  | oscFreq j | oscPhase j =>
    simp only [readReg, writeLow, State.withOsc_osc, Vec7.get_set, if_true]
    exact zext_toNat (by decide) imm
  | oscWave j =>
    obtain ⟨himm, -⟩ := lowWriteCause_oscWave_iff.mp hcause
    simp only [readReg, writeLow, State.withOsc_osc, Vec7.get_set, if_true]
    rw [zext_toNat (by decide), BitVec.extractLsb'_toNat, Nat.shiftRight_zero]
    omega
  | foscFreq k | foscPhase k => simp only [regNumber, BitVec.toNat_ofNat] at hnarrow; omega

theorem readReg_writeLow_wide {r : Reg} (hwide : 0x40 ≤ (regNumber r).toNat) (imm : Half) (s : State) :
    (readReg Config.cfg r (writeLow r imm s)).toNat =
      (readReg Config.cfg r s).toNat / 2 ^ 16 * 2 ^ 16 + imm.toNat := by
  obtain ⟨k, rfl | rfl⟩ := wide_cases hwide
  all_goals
    simp only [readReg, writeLow, State.withFosc_fosc, Vec3.get_set, if_true]
    exact low_written_toNat _ imm

theorem readReg_writeHigh_wide {r : Reg} (hwide : 0x40 ≤ (regNumber r).toNat) (imm : Half) (s : State) :
    (readReg Config.cfg r (writeHigh r imm s)).toNat =
      imm.toNat * 2 ^ 16 + (readReg Config.cfg r s).toNat % 2 ^ 16 := by
  obtain ⟨k, rfl | rfl⟩ := wide_cases hwide
  all_goals
    simp only [readReg, writeHigh, State.withFosc_fosc, Vec3.get_set, if_true]
    exact high_written_toNat _ imm

/-! ### Every other register -/

theorem readReg_writeLow_other {r r' : Reg} (hr : r ≠ .status) (hne : r' ≠ r) (imm : Half) (s : State) :
    readReg Config.cfg r' (writeLow r imm s) = readReg Config.cfg r' s := by
  cases r with
  | ctrl => cases r' with
    | ctrl => exact absurd rfl hne
    | _ => rfl
  | status => exact absurd rfl hr
  | sliceLen | badcmd => rfl
  | start ch => exact readReg_set_start _ s hne imm
  | stop ch => exact readReg_set_stop _ s hne imm
  | cur ch => exact readReg_set_cur _ s hne imm
  | oscFreq j => exact readReg_set_osc _ s (fun h => absurd h hne) (fun _ => rfl) (fun _ => rfl)
  | oscPhase j => exact readReg_set_osc _ s (fun _ => rfl) (fun h => absurd h hne) (fun _ => rfl)
  | oscWave j => exact readReg_set_osc _ s (fun _ => rfl) (fun _ => rfl) (fun h => absurd h hne)
  | foscFreq k => exact readReg_set_fosc _ s (fun h => absurd h hne) (fun _ => rfl)
  | foscPhase k => exact readReg_set_fosc _ s (fun _ => rfl) (fun h => absurd h hne)

theorem readReg_writeHigh_other {r r' : Reg} (hne : r' ≠ r) (imm : Half) (s : State) :
    readReg Config.cfg r' (writeHigh r imm s) = readReg Config.cfg r' s := by
  cases r with
  | foscFreq k => exact readReg_set_fosc _ s (fun h => absurd h hne) (fun _ => rfl)
  | foscPhase k => exact readReg_set_fosc _ s (fun _ => rfl) (fun h => absurd h hne)
  | _ => rfl

/-- Nothing outside the writable registers changes. -/
theorem writeLow_frame {r : Reg} (hr : r ≠ .status) (imm : Half) (s : State) :
    let t := writeLow r imm s
    t = { s with start := t.start, stop := t.stop, cur := t.cur, ctrl := t.ctrl, osc := t.osc, fosc := t.fosc } := by
  cases r with
  | status => exact absurd rfl hr
  | _ => rfl

theorem writeHigh_frame (r : Reg) (imm : Half) (s : State) :
    writeHigh r imm s = { s with fosc := (writeHigh r imm s).fosc } := by
  cases r <;> rfl

/-! ### The commands -/

theorem wrl_of_lowWriteCause {r : Reg} {imm : Half} (h : lowWriteCause Config.cfg r imm = none) (s : State) :
    exec (.wrl (regNumber r) imm) s = .next (writeLow r imm s) := by
  rw [exec_eq, result, wrl, regOf_regNumber]
  simp only [h]

theorem wrh_of_highWriteCause {r : Reg} (h : highWriteCause r = none) (imm : Half) (s : State) :
    exec (.wrh (regNumber r) imm) s = .next (writeHigh r imm s) := by
  rw [exec_eq, result, wrh, regOf_regNumber]
  simp only [h]

theorem highWriteCause_wide {r : Reg} (hwide : 0x40 ≤ (regNumber r).toNat) : highWriteCause r = none := by
  obtain ⟨k, rfl | rfl⟩ := wide_cases hwide <;> rfl

/-- Settles O39: the word's cause code admits the write, and the write is of the one register. -/
theorem wrlWritesTheLowHalf : Obligations.WrlWritesTheLowHalf := by
  intro reg imm s old hcause hstatus hold
  obtain ⟨r, rfl, rfl⟩ := reg_of_regValue hold
  have hr : r ≠ .status := fun h => hstatus (by rw [h]; rfl)
  have hwrite := lowWriteCause_eq_none hcause
  refine ⟨writeLow r imm s, wrl_of_lowWriteCause hwrite s, ?_,
    fun n hn => regValue_eq_of_readReg (fun r' hne => readReg_writeLow_other hr hne imm s) hn, writeLow_frame hr imm s⟩
  rw [regValue_regNumber]
  split
  next hwide => rw [readReg_writeLow_wide hwide]
  next hnarrow => rw [readReg_writeLow_narrow hr (Nat.lt_of_not_le hnarrow) hwrite]

/-- Settles O41: the word's cause code leaves only the registers with a high half. -/
theorem wrhWritesTheHighHalf : Obligations.WrhWritesTheHighHalf := by
  intro reg imm s old hcause hold
  obtain ⟨r, rfl, rfl⟩ := reg_of_regValue hold
  have hwide := wide_of_wordCause hcause
  refine ⟨writeHigh r imm s, wrh_of_highWriteCause (highWriteCause_wide hwide) imm s, ?_,
    fun n hn => regValue_eq_of_readReg (fun r' hne => readReg_writeHigh_other hne imm s) hn, writeHigh_frame r imm s⟩
  rw [regValue_regNumber, readReg_writeHigh_wide hwide]

/-- Write-one-to-clear of one flag. -/
theorem and_not_decide (b : Bool) (p : Prop) [Decidable p] : (b && !decide p) = if p then false else b := by
  by_cases hp : p
  · simp [hp]
  · simp [hp]

/-- Settles O40: the two low bits of the immediate, as numbers. -/
theorem wrlStatusClears : Obligations.WrlStatusClears := by
  intro imm s himm
  have hwrite : lowWriteCause Config.cfg .status imm = none :=
    lowWriteCause_status_iff.mpr (by omega)
  have hill : imm.getLsbD 0 = decide (imm.toNat % 2 = 1) := Nat.testBit_zero _
  have hovf : imm.getLsbD 1 = decide (imm.toNat / 2 = 1) := by
    rw [BitVec.getLsbD, Nat.testBit_eq_decide_div_mod_eq]
    exact decide_eq_decide.mpr (by omega)
  refine (wrl_of_lowWriteCause hwrite s).trans ?_
  rw [writeLow, clearStatus_eq, hill, hovf]
  simp only [and_not_decide, decide_eq_true_eq]
  rfl

end Sys2Proof.Machine

/-! PROOF. The host accesses that write nothing of the register space: `NOP`, `RD` and, with its reset values, `RESET`
(44_host_access.md R210, R213, R214). -/

namespace Sys2Proof.Machine

open Sys2Proof Sys2Proof.Spec

/-- Settles O38: the command's meaning is the state it starts from. -/
theorem nopChangesNothing : Obligations.NopChangesNothing := exec_eq .nop

theorem respond_eq_answered (v : Word) (s : State) : respond v s = answered v s := rfl

/-- Settles O42: a register's value is the word its `RD` responds with. -/
theorem rdAnswersTheRegister : Obligations.RdAnswersTheRegister := by
  intro reg s v hv
  obtain ⟨r, rfl, rfl⟩ := reg_of_regValue hv
  refine ⟨?_, BitVec.isLt _⟩
  rw [exec_eq, result, rd, regOf_regNumber, BitVec.ofNat_toNat, BitVec.setWidth_eq, ← respond_eq_answered]

/-- Settles O43: the block's part of the state is that after reset, whose values are the spec's. -/
theorem resetCommandResetsTheBlock : Obligations.ResetCommandResetsTheBlock := by
  intro s
  obtain ⟨hosc, hfosc, hfreqs, -⟩ := resetStateIsTheSpecs
  exact ⟨resetBlock s, exec_eq .reset s, hosc, hfosc, hfreqs, rfl, rfl, rfl, rfl, rfl, rfl, rfl, rfl, rfl, rfl⟩

end Sys2Proof.Machine

/-! PROOF. `PLAY` as host commands (43_segment_player.md R188, R190): the commands of a timeslice do what the segment
player does in it, and leave the sink's level as it was, so the commands of the next timeslice render at once too. -/

namespace Sys2Proof.Machine

open Sys2Proof Sys2Proof.Spec

/-- What a list of commands does to the state. -/
def resultAll (is : List Instr) (s : State) : State := is.foldl (fun t i => result i t) s

theorem runAll_eq (is : List Instr) (s : State) : runAll is s = .next (resultAll is s) := by
  induction is generalizing s with
  | nil => rfl
  | cons i is ih => rw [runAll, exec_eq]; exact ih (result i s)

theorem resultAll_append (is js : List Instr) (s : State) :
    resultAll (is ++ js) s = resultAll js (resultAll is s) := List.foldl_append

theorem result_wrl_cur (ch : Fin 4) (x : Half) (s : State) :
    result (.wrl (regNumber (.cur ch)) x) s = s.withCur (s.cur.set ch x) := by
  rw [result, wrl, regOf_regNumber]; rfl

/-- The four writes of `CUR`. -/
theorem resultAll_wrl_cur (f : Vec4 Half) (s : State) :
    resultAll [.wrl 0x18#8 (f.get 0), .wrl 0x19#8 (f.get 1), .wrl 0x1A#8 (f.get 2), .wrl 0x1B#8 (f.get 3)] s =
      s.withCur f :=
  calc _ = result (.wrl (regNumber (.cur 3)) (f.get 3)) (result (.wrl (regNumber (.cur 2)) (f.get 2))
            (result (.wrl (regNumber (.cur 1)) (f.get 1)) (result (.wrl (regNumber (.cur 0)) (f.get 0)) s))) := rfl
    _ = s.withCur ((((s.cur.set 0 (f.get 0)).set 1 (f.get 1)).set 2 (f.get 2)).set 3 (f.get 3)) := by
      simp only [result_wrl_cur]; rfl
    _ = s.withCur f := rfl

/-- The renderer of a sounding source as a command of `SLICE_LEN` samples. -/
theorem result_render_slice {src : Source} (hsrc : src ≠ .silence) {s : State} (hready : s.smpReady = true) :
    result (if src = .buzz then .rform (BitVec.ofNat 16 Config.cfg.sliceLen)
      else .rfric (BitVec.ofNat 16 Config.cfg.sliceLen)) s = samples Config.cfg (kindOf src) Config.cfg.sliceLen s := by
  have hlen : (BitVec.ofNat 16 Config.cfg.sliceLen).toNat = Config.cfg.sliceLen := by
    have := Config.cfg_valid.sliceLen_le
    rw [BitVec.toNat_ofNat, Nat.mod_eq_of_lt (by omega)]
  split
  next hbuzz => rw [result, renderCommand_ready hready, hlen, hbuzz]; rfl
  next hnoise => rw [result, renderCommand_ready hready, hlen, kindOf_noise hsrc hnoise]

/-- The commands of a timeslice do what the segment player does in it. -/
theorem resultAll_sliceCommands {g : Segment} (hsrc : g.src ≠ .silence) (i : Nat) {s : State}
    (hready : s.smpReady = true) :
    resultAll (sliceCommands g.src (sliceFreqs g i)) s = playSlice Config.cfg g i s := by
  have hbegin : (beginSlice Config.cfg g i s).smpReady = true := (beginSlice_sameInputs ..).smpReady.trans hready
  rw [playSlice, ← result_render_slice hsrc hbegin, beginSlice, ← resultAll_wrl_cur]
  rfl

/-- The commands of a run of timeslices. -/
theorem resultAll_flatMap_sliceCommands {g : Segment} (hsrc : g.src ≠ .silence) (i k : Nat) {s : State}
    (hready : s.smpReady = true) :
    resultAll ((List.range' i k).flatMap fun m => sliceCommands g.src (sliceFreqs g m)) s =
      playSlices Config.cfg g i k s := by
  induction k generalizing i s with
  | zero => rfl
  | succ k ih =>
    have hnext : (playSlice Config.cfg g i s).smpReady = true := (playSlice_sameInputs ..).smpReady.trans hready
    rw [List.range'_succ, List.flatMap_cons, resultAll_append, resultAll_sliceCommands hsrc i hready, ih (i + 1) hnext,
      playSlices_succ]

theorem segmentCommands_eq (src : Source) (n : Half) (s : State) :
    segmentCommands src n.toNat s =
      (List.range' 0 n.toNat).flatMap fun i => sliceCommands src (sliceFreqs (latch src n s) i) := by
  have hfreqs (i : Nat) : Vec4.ofFn (channelFreq src n.toNat i s) = sliceFreqs (latch src n s) i :=
    Vec4.ext_get fun ch => by rw [Vec4.get_ofFn, sliceFreqs_latch_get]
  simp only [segmentCommands, List.range_eq_range', hfreqs]

/-- Settles O32: both are the timeslices of the latched segment, in order. -/
theorem playIsItsSlicesCommands : Obligations.PlayIsItsSlicesCommands := by
  intro src n s hsrc hready
  refine ⟨playSlices Config.cfg (latch src n s) 0 n.toNat s, ?_, ?_⟩
  · rw [exec_eq, result, playCommand_ready hready, play_sound hsrc]
  · rw [runAll_eq, segmentCommands_eq]
    exact congrArg _ (resultAll_flatMap_sliceCommands (g := latch src n s) hsrc 0 n.toNat hready)

end Sys2Proof.Machine

/-! PROOF. Refused words (60_exceptions.md R231 to R233). The decoder makes the first two checks, a command's meaning the
other three; together they refuse a word with the cause whose code the statements compute from the word's fields. -/

namespace Sys2Proof.Machine

open Sys2Proof Sys2Proof.Spec

/-! ### The checks on a word's fields -/

/-- The value `v` a `WRL` would write to register number `n` is out of the register's range (60_exceptions.md R231,
cause 5). -/
abbrev BadValue (ampMax n v : Nat) : Prop :=
  (n = 0x00 ∧ v / 8 ≠ 0) ∨ (n = 0x01 ∧ v / 4 ≠ 0) ∨ (WaveNumber n ∧ (v / 256 ≠ 0 ∨ ampMax < v % 64))

/-- The checks (3) to (5) of 60_exceptions.md R233 on the fields of a word: `wordCause` after its first two checks. -/
def fieldCause (ampMax op n v : Nat) : Nat :=
  if (op = 0x1 ∨ op = 0x2 ∨ op = 0x3) ∧ Reserved n then 3
  else if (op = 0x1 ∧ (n = 0x02 ∨ n = 0x03)) ∨ (op = 0x2 ∧ n < 0x40) then 4
  else if op = 0x1 ∧ BadValue ampMax n v then 5
  else 0

theorem wordCause_reservedOpcode {w : Nat} (h : 0x9 ≤ w / 2 ^ 28 ∧ w / 2 ^ 28 ≤ 0xE) (a : Nat) : wordCause a w = 1 :=
  if_pos h

theorem wordCause_mustBeZero {w : Nat} (h : ZeroFieldBroken w) (a : Nat) : wordCause a w = 2 := by
  rw [wordCause, if_neg (by omega), if_pos h]

theorem wordCause_eq_fieldCause {w : Nat} (hop : ¬(0x9 ≤ w / 2 ^ 28 ∧ w / 2 ^ 28 ≤ 0xE)) (hzero : ¬ZeroFieldBroken w)
    (a : Nat) : wordCause a w = fieldCause a (w / 2 ^ 28) (w / 2 ^ 20 % 256) (w % 2 ^ 16) := by
  have hamp : w % 2 ^ 16 % 64 = w % 64 := Nat.mod_mod_of_dvd w (by decide)
  simp only [wordCause, if_neg hop, if_neg hzero, fieldCause, BadValue, hamp]

section
variable (a n v : Nat)

theorem fieldCause_wrl :
    fieldCause a 0x1 n v =
      if Reserved n then 3 else if n = 0x02 ∨ n = 0x03 then 4 else if BadValue a n v then 5 else 0 := by
  simp [fieldCause]

theorem fieldCause_wrh : fieldCause a 0x2 n v = if Reserved n then 3 else if n < 0x40 then 4 else 0 := by
  simp [fieldCause]

theorem fieldCause_rd : fieldCause a 0x3 n v = if Reserved n then 3 else 0 := by
  simp [fieldCause]

/-- Only `WRL`, `WRH` and `RD` can be refused for their operands (60_exceptions.md R231). -/
theorem fieldCause_other {op : Nat} (h : ¬(op = 0x1 ∨ op = 0x2 ∨ op = 0x3)) : fieldCause a op n v = 0 := by
  rw [fieldCause, if_neg (by omega), if_neg (by omega), if_neg (by omega)]

end

/-! ### The checks on a register access -/

/-- Every write cause of a register that admits a `WRL` is about the value. -/
theorem lowWriteCause_value {r : Reg} (hlen : r ≠ .sliceLen) (hbad : r ≠ .badcmd) (c : Cfg) (imm : Half) :
    lowWriteCause c r imm = none ∨ lowWriteCause c r imm = some .outOfRange := by
  cases r with
  | sliceLen | badcmd => contradiction
  | ctrl | status | oscWave j => exact ite_eq_or_eq ..
  | start _ | stop _ | cur _ | oscFreq _ | oscPhase _ | foscFreq _ | foscPhase _ => exact .inl rfl

theorem lowWriteCause_eq_none_iff {r : Reg} (hlen : r ≠ .sliceLen) (hbad : r ≠ .badcmd) (c : Cfg) (imm : Half) :
    lowWriteCause c r imm = none ↔ ¬BadValue c.ampMax (regNumber r).toNat imm.toNat := by
  cases r with
  | sliceLen | badcmd => contradiction
  | ctrl => rw [lowWriteCause_ctrl_iff, show (regNumber .ctrl).toNat = 0x00 from rfl]; omega
  | status => rw [lowWriteCause_status_iff, show (regNumber .status).toNat = 0x01 from rfl]; omega
  | oscWave j =>
    have hnum : (regNumber (.oscWave j)).toNat = 0x22 + 4 * j.val := toNat_ofNat_byte (by omega)
    rw [lowWriteCause_oscWave_iff, hnum]; omega
  | start _ | stop _ | cur _ | oscFreq _ | oscPhase _ | foscFreq _ | foscPhase _ =>
    refine iff_of_true rfl ?_
    simp only [regNumber, BitVec.toNat_ofNat]; omega

theorem regNumber_injective {r r' : Reg} (h : (regNumber r).toNat = (regNumber r').toNat) : r = r' := by
  have hsome := regOf_regNumber r
  rw [BitVec.eq_of_toNat_eq h, regOf_regNumber] at hsome
  exact (Option.some.inj hsome).symm

/-- The code of a check's answer (60_exceptions.md R231), 0 for none. -/
def answerCode : Option Cause → Nat
  | none => 0
  | some k => (causeCode k).toNat

theorem answerCode_eq_zero_iff {x : Option Cause} : answerCode x = 0 ↔ x = none := by
  cases x with
  | none => exact iff_of_true rfl rfl
  | some k =>
    have hcode : answerCode (some k) ≠ 0 := Nat.ne_of_gt (causeCode_range k).1
    exact iff_of_false hcode nofun

theorem lowWriteCause_code (c : Cfg) (r : Reg) (imm : Half) :
    answerCode (lowWriteCause c r imm) =
      if (regNumber r).toNat = 0x02 ∨ (regNumber r).toNat = 0x03 then 4
      else if BadValue c.ampMax (regNumber r).toNat imm.toNat then 5 else 0 := by
  by_cases hlen : r = .sliceLen
  · rw [hlen]; rfl
  by_cases hbad : r = .badcmd
  · rw [hbad]; rfl
  have hnum : ¬((regNumber r).toNat = 0x02 ∨ (regNumber r).toNat = 0x03) := fun h =>
    h.elim (fun h => hlen (regNumber_injective h)) (fun h => hbad (regNumber_injective h))
  have hnone := lowWriteCause_eq_none_iff hlen hbad c imm
  rw [if_neg hnum]
  obtain hanswer | hanswer := lowWriteCause_value hlen hbad c imm
  · rw [if_neg (hnone.mp hanswer), hanswer]; rfl
  · have hvalue : BadValue c.ampMax (regNumber r).toNat imm.toNat := by
      rw [hanswer] at hnone; exact not_not.mp (mt hnone.mpr nofun)
    rw [if_pos hvalue, hanswer]; rfl

theorem highWriteCause_code (r : Reg) :
    answerCode (highWriteCause r) = if (regNumber r).toNat < 0x40 then 4 else 0 := by
  split
  next hnarrow =>
    cases r with
    | foscFreq k | foscPhase k => simp only [regNumber, BitVec.toNat_ofNat] at hnarrow; omega
    | _ => rfl
  next hwide => rw [highWriteCause_wide (Nat.le_of_not_lt hwide)]; rfl

/-- A register number's first check: it is reserved, or a register's. -/
theorem regOf_cases (reg : BitVec 8) :
    Reserved reg.toNat ∧ regOf reg = none ∨ ¬Reserved reg.toNat ∧ ∃ r, reg = regNumber r ∧ regOf reg = some r := by
  cases hr : regOf reg with
  | none => exact .inl ⟨(regOf_eq_none_iff reg).mp hr, rfl⟩
  | some r =>
    refine .inr ⟨fun hres => ?_, r, (regNumber_of_regOf hr).symm, rfl⟩
    rw [(regOf_eq_none_iff reg).mpr hres] at hr; contradiction

/-! ### The checks of a command -/

theorem refusalOf_wrl_code (c : Cfg) (reg : BitVec 8) (imm : Half) :
    answerCode (refusalOf c (.wrl reg imm)) = fieldCause c.ampMax 0x1 reg.toNat imm.toNat := by
  rw [fieldCause_wrl]
  obtain ⟨hres, hreg⟩ | ⟨hres, r, rfl, hreg⟩ := regOf_cases reg
  · simp only [refusalOf, hreg, if_pos hres]; rfl
  · simp only [refusalOf, hreg, if_neg hres]; exact lowWriteCause_code c r imm

theorem refusalOf_wrh_code (c : Cfg) (reg : BitVec 8) (imm : Half) :
    answerCode (refusalOf c (.wrh reg imm)) = fieldCause c.ampMax 0x2 reg.toNat imm.toNat := by
  rw [fieldCause_wrh]
  obtain ⟨hres, hreg⟩ | ⟨hres, r, rfl, hreg⟩ := regOf_cases reg
  · simp only [refusalOf, hreg, if_pos hres]; rfl
  · simp only [refusalOf, hreg, if_neg hres]; exact highWriteCause_code r

theorem refusalOf_rd_code (c : Cfg) (reg : BitVec 8) (v : Nat) :
    answerCode (refusalOf c (.rd reg)) = fieldCause c.ampMax 0x3 reg.toNat v := by
  rw [fieldCause_rd]
  obtain ⟨hres, hreg⟩ | ⟨hres, r, rfl, hreg⟩ := regOf_cases reg
  · simp only [refusalOf, hreg, if_pos hres]; rfl
  · simp only [refusalOf, hreg, if_neg hres]; rfl

/-- A command's answer is that of checks (3) to (5) on the fields of its word. -/
theorem refusalOf_code (c : Cfg) (i : Instr) :
    answerCode (refusalOf c i) =
      fieldCause c.ampMax (opcodeBits i).toNat (regField (encode i)).toNat (lowField (encode i)).toNat := by
  cases i with
  | wrl reg imm => rw [encode, regField_formatR, lowField_formatR]; exact refusalOf_wrl_code c reg imm
  | wrh reg imm => rw [encode, regField_formatR, lowField_formatR]; exact refusalOf_wrh_code c reg imm
  | rd reg => rw [encode, regField_formatR]; exact refusalOf_rd_code c reg _
  | nop | play _ _ | cenv _ | rform _ | rfric _ | rsil _ | reset =>
    exact (fieldCause_other _ _ _ (by rw [opcodeBits]; decide)).symm

/-- The word of a command has 0 in the must-be-zero field of its format (30_encoding.md R91). -/
theorem encode_zeroField (i : Instr) : ¬ZeroFieldBroken (encode i).toNat := by
  cases i with
  | nop | reset => decide
  | wrl _ _ | wrh _ _ | rd _ => simp only [encode, formatR_toNat, opcodeBits, BitVec.toNat_ofNat]; omega
  | play _ _ | cenv _ | rform _ | rfric _ | rsil _ =>
    simp only [encode, formatC_toNat, opcodeBits, BitVec.toNat_ofNat]; omega

/-- No command has a reserved opcode (30_encoding.md R92). -/
theorem opcodeBits_not_reserved (i : Instr) : ¬(0x9 ≤ (opcodeBits i).toNat ∧ (opcodeBits i).toNat ≤ 0xE) := by
  cases i <;> (rw [opcodeBits]; decide)

theorem wordCause_encode (c : Cfg) (i : Instr) : wordCause c.ampMax (encode i).toNat = answerCode (refusalOf c i) := by
  have hop : (encode i).toNat / 2 ^ 28 = (opcodeBits i).toNat := by rw [← opcodeOf_toNat, opcodeOf_encode]
  rw [wordCause_eq_fieldCause (by rw [hop]; exact opcodeBits_not_reserved i) (encode_zeroField i), hop, refusalOf_code,
    regField_toNat, lowField_toNat]

/-- Settles O8: a command has no cause of refusal just when the code of its answer is 0. -/
theorem wellFormedIffNoCause : Obligations.WellFormedIffNoCause := by
  intro i
  rw [Instr.WellFormed, Option.isNone_iff_eq_none, wordCause_encode, answerCode_eq_zero_iff]

/-! ### The checks of the decoder -/

/-- A field of a word that is not 0, as a number. -/
theorem field_ne_zero_iff (w : Word) (i n : Nat) : w.extractLsb' i n ≠ 0#n ↔ w.toNat / 2 ^ i % 2 ^ n ≠ 0 := by
  rw [ne_eq, ← BitVec.toNat_inj, BitVec.extractLsb'_toNat, Nat.shiftRight_eq_div_pow]
  rfl

theorem low_field_ne_zero_iff (w : Word) (n : Nat) : w.extractLsb' 0 n ≠ 0#n ↔ w.toNat % 2 ^ n ≠ 0 := by
  rw [field_ne_zero_iff, Nat.pow_zero, Nat.div_one]

theorem withZero_illegal {n : Nat} {zero : BitVec n} {i : Instr} {k : Cause} (h : withZero zero i = .illegal k) :
    zero ≠ 0#n ∧ k = .mustBeZero := by
  by_cases hzero : zero = 0#n
  · rw [withZero_pos hzero] at h; contradiction
  · rw [withZero_neg hzero] at h; injection h with h; exact ⟨hzero, h.symm⟩

/-- Every opcode has a row of 30_encoding.md R92 or is in 0x9..0xE. -/
theorem opcode_listed_or_reserved (op : BitVec 4) :
    (op = 0x0#4 ∨ op = 0x1#4 ∨ op = 0x2#4 ∨ op = 0x3#4 ∨ op = 0x4#4 ∨ op = 0x5#4 ∨ op = 0x6#4 ∨ op = 0x7#4 ∨
      op = 0x8#4 ∨ op = 0xF#4) ∨ 0x9 ≤ op.toNat ∧ op.toNat ≤ 0xE := by
  revert op; decide

/-- The two refusals of the decoder (60_exceptions.md R231, causes 1 and 2), by the row of the word's opcode. -/
theorem decode_illegal {w : Word} {k : Cause} (h : decode w = .illegal k) :
    (k = .reservedOpcode ∧ 0x9 ≤ w.toNat / 2 ^ 28 ∧ w.toNat / 2 ^ 28 ≤ 0xE) ∨
      k = .mustBeZero ∧ ZeroFieldBroken w.toNat := by
  unfold decode at h
  split at h
  case h_11 =>
    injection h with hk
    refine .inl ⟨hk.symm, ?_⟩
    rw [← opcodeOf_toNat]
    have hop := opcode_listed_or_reserved (opcodeOf w)
    tauto
  all_goals
    rename_i hrow
    obtain ⟨hzero, rfl⟩ := withZero_illegal h
    have hop := (opcodeOf_toNat w).symm.trans (congrArg BitVec.toNat hrow)
    refine .inr ⟨rfl, ?_⟩
  case h_1 => exact .inl ⟨.inl hop, (low_field_ne_zero_iff ..).mp hzero⟩
  case h_2 => exact .inr (.inl ⟨.inl hop, (field_ne_zero_iff ..).mp hzero⟩)
  case h_3 => exact .inr (.inl ⟨.inr hop, (field_ne_zero_iff ..).mp hzero⟩)
  case h_4 => exact .inr (.inr (.inl ⟨hop, (low_field_ne_zero_iff ..).mp hzero⟩))
  case h_5 => exact .inr (.inr (.inr (.inl ⟨hop, (field_ne_zero_iff ..).mp hzero⟩)))
  case h_6 =>
    have hfields := not_and_or.mp (mt append_eq_zero_iff.mpr hzero)
    exact .inr (.inr (.inr (.inr (.inl
      ⟨hop, hfields.imp (field_ne_zero_iff ..).mp (low_field_ne_zero_iff ..).mp⟩))))
  case h_7 => exact .inr (.inr (.inr (.inr (.inr ⟨.inl hop, (field_ne_zero_iff ..).mp hzero⟩))))
  case h_8 => exact .inr (.inr (.inr (.inr (.inr ⟨.inr (.inl hop), (field_ne_zero_iff ..).mp hzero⟩))))
  case h_9 => exact .inr (.inr (.inr (.inr (.inr ⟨.inr (.inr hop), (field_ne_zero_iff ..).mp hzero⟩))))
  case h_10 => exact .inl ⟨.inr hop, (low_field_ne_zero_iff ..).mp hzero⟩

theorem wordCause_of_decode_illegal {w : Word} {k : Cause} (h : decode w = .illegal k) (a : Nat) :
    wordCause a w.toNat = (causeCode k).toNat := by
  obtain ⟨rfl, hop⟩ | ⟨rfl, hzero⟩ := decode_illegal h
  · exact wordCause_reservedOpcode hop a
  · exact wordCause_mustBeZero hzero a

/-! ### The two ways a host access can go, by its answer -/

/-- A `WRL` is refused by its first check that fails, or carried out. -/
theorem result_wrl_cases (reg : BitVec 8) (imm : Half) :
    (∃ k, refusalOf Config.cfg (.wrl reg imm) = some k ∧
      result (.wrl reg imm) = raiseIll k (encode (.wrl reg imm))) ∨
    refusalOf Config.cfg (.wrl reg imm) = none ∧ ∃ r, result (.wrl reg imm) = writeLow r imm := by
  cases hr : regOf reg with
  | none => exact .inl ⟨.badRegister, by simp only [refusalOf, hr], funext fun s => by simp only [result, wrl, hr]⟩
  | some r =>
    cases hk : lowWriteCause Config.cfg r imm with
    | none => exact .inr ⟨by simp only [refusalOf, hr, hk], r, funext fun s => by simp only [result, wrl, hr, hk]⟩
    | some k => exact .inl ⟨k, by simp only [refusalOf, hr, hk], funext fun s => by simp only [result, wrl, hr, hk]⟩

/-- A `WRH` is refused by its first check that fails, or carried out. -/
theorem result_wrh_cases (reg : BitVec 8) (imm : Half) :
    (∃ k, refusalOf Config.cfg (.wrh reg imm) = some k ∧
      result (.wrh reg imm) = raiseIll k (encode (.wrh reg imm))) ∨
    refusalOf Config.cfg (.wrh reg imm) = none ∧ ∃ r, result (.wrh reg imm) = writeHigh r imm := by
  cases hr : regOf reg with
  | none => exact .inl ⟨.badRegister, by simp only [refusalOf, hr], funext fun s => by simp only [result, wrh, hr]⟩
  | some r =>
    cases hk : highWriteCause r with
    | none => exact .inr ⟨by simp only [refusalOf, hr, hk], r, funext fun s => by simp only [result, wrh, hr, hk]⟩
    | some k => exact .inl ⟨k, by simp only [refusalOf, hr, hk], funext fun s => by simp only [result, wrh, hr, hk]⟩

/-- An `RD` is refused for its register number, or answered. -/
theorem result_rd_cases (reg : BitVec 8) :
    (∃ k, refusalOf Config.cfg (.rd reg) = some k ∧ result (.rd reg) = raiseIll k (encode (.rd reg))) ∨
    refusalOf Config.cfg (.rd reg) = none ∧
      ∃ r, result (.rd reg) = fun s => respond (readReg Config.cfg r s) s := by
  cases hr : regOf reg with
  | none => exact .inl ⟨.badRegister, by simp only [refusalOf, hr], funext fun s => by simp only [result, rd, hr]⟩
  | some r => exact .inr ⟨by simp only [refusalOf, hr], r, funext fun s => by simp only [result, rd, hr]⟩

/-! ### `ILL` -/

theorem raiseIll_first {s : State} (h : s.status.ill = false) (k : Cause) (w : Word) :
    (raiseIll k w s).status = ⟨true, s.status.ovf, causeCode k⟩ ∧ (raiseIll k w s).badcmd = w := by
  by_cases hop : opcodeOf w = 0x3#4
  · rw [raiseIll_rd hop, recordIll_first h, respond_frame]; exact ⟨rfl, rfl⟩
  · rw [raiseIll_other hop, recordIll_first h]; exact ⟨rfl, rfl⟩

/-- A write of `STATUS` can clear `ILL` and not set it (44_host_access.md R211); no other write touches it. -/
theorem writeLow_keeps_ill_clear {s : State} (h : s.status.ill = false) (r : Reg) (imm : Half) :
    (writeLow r imm s).status.ill = false := by
  cases r with
  | status => rw [writeLow, clearStatus_eq]; simp [h]
  | _ => exact h

theorem writeHigh_ill (r : Reg) (imm : Half) (s : State) : (writeHigh r imm s).status.ill = s.status.ill := by
  rw [writeHigh_frame]

theorem respond_ill (v : Word) (s : State) : (respond v s).status.ill = s.status.ill := by
  rw [respond_frame]; rfl

theorem renderCommand_ill (c : Cfg) (op : SeqOp) (k : Kind) (n : Half) (s : State) :
    (renderCommand c op k n s).status.ill = s.status.ill := by
  unfold renderCommand
  split
  · rfl
  split
  · exact (samples_soundFrame ..).ill
  · rfl

theorem playCommand_ill (c : Cfg) (src : Source) (n : Half) (s : State) :
    (playCommand c src n s).status.ill = s.status.ill := by
  unfold playCommand
  split
  · rfl
  split
  · exact (play_soundFrame ..).ill
  · unfold startPlay; split <;> rfl

/-! ### The word accepted in IDLE -/

/-- A command with a cause of refusal does what its word does when refused (60_exceptions.md R232), and no other command
sets `ILL`. -/
theorem result_cases (i : Instr) :
    (∃ k, refusalOf Config.cfg i = some k ∧ result i = raiseIll k (encode i)) ∨
    refusalOf Config.cfg i = none ∧ ∀ s, s.status.ill = false → (result i s).status.ill = false := by
  cases i with
  | nop => exact .inr ⟨rfl, fun _ h => h⟩
  | wrl reg imm =>
    exact (result_wrl_cases reg imm).imp_right fun ⟨hnone, r, hr⟩ =>
      ⟨hnone, fun _ h => hr ▸ writeLow_keeps_ill_clear h r imm⟩
  | wrh reg imm =>
    exact (result_wrh_cases reg imm).imp_right fun ⟨hnone, r, hr⟩ =>
      ⟨hnone, fun _ h => hr ▸ (writeHigh_ill r imm _).trans h⟩
  | rd reg =>
    exact (result_rd_cases reg).imp_right fun ⟨hnone, _, hr⟩ => ⟨hnone, fun _ h => hr ▸ (respond_ill ..).trans h⟩
  | play src n => exact .inr ⟨rfl, fun _ h => (playCommand_ill ..).trans h⟩
  | cenv src => exact .inr ⟨rfl, fun _ h => (cenv_soundFrame ..).ill.trans h⟩
  | rform n | rfric n | rsil n => exact .inr ⟨rfl, fun _ h => (renderCommand_ill ..).trans h⟩
  | reset => exact .inr ⟨rfl, fun _ _ => rfl⟩

/-- The acceptance of a word: it is refused with the cause whose code its fields give, or executed without setting
`ILL`. -/
theorem acceptWord_cases (w : Word) :
    (∃ k, wordCause Config.cfg.ampMax w.toNat = (causeCode k).toNat ∧ ∀ s, acceptWord w s = .next (raiseIll k w s)) ∨
    wordCause Config.cfg.ampMax w.toNat = 0 ∧
      ∃ i, (∀ s, acceptWord w s = .next (result i s)) ∧
        ∀ s, s.status.ill = false → (result i s).status.ill = false := by
  cases hdecode : decode w with
  | illegal k => exact .inl ⟨k, wordCause_of_decode_illegal hdecode _, acceptWord_illegal hdecode⟩
  | command i =>
    obtain rfl := decode_eq_command_iff.mp hdecode
    rw [wordCause_encode]
    obtain ⟨k, hk, hrefused⟩ | ⟨hnone, hill⟩ := result_cases i
    · exact .inl ⟨k, by rw [hk]; rfl, fun s => hrefused ▸ acceptWord_command hdecode s⟩
    · exact .inr ⟨by rw [hnone]; rfl, i, acceptWord_command hdecode, hill⟩

/-- Settles O6: a word with a cause is recorded, and one without is executed. -/
theorem everyWordsCause : Obligations.EveryWordsCause := by
  intro s w ws hrst hst hcmds hill
  have hill' : (s.withCmds ws).status.ill = false := hill
  have hstep : step s = acceptWord w (s.withCmds ws) := (step_idle hrst hst).trans (tickIdle_cons hcmds)
  obtain ⟨k, hcause, hrefused⟩ | ⟨hcause, i, hexecuted, hkeeps⟩ := acceptWord_cases w
  · obtain ⟨hstatus, hbadcmd⟩ := raiseIll_first hill' k w
    have hnonzero : (causeCode k).toNat ≠ 0 := Nat.ne_of_gt (causeCode_range k).1
    refine ⟨raiseIll k w (s.withCmds ws), hstep.trans (hrefused _), fun h => absurd (hcause ▸ h) hnonzero, fun _ => ?_⟩
    rw [hstatus, hcause]
    exact ⟨rfl, rfl, hbadcmd⟩
  · exact ⟨result i (s.withCmds ws), hstep.trans (hexecuted _), fun _ => hkeeps _ hill', fun h => absurd hcause h⟩

end Sys2Proof.Machine

/-! PROOF. The renderer commands with a ready sink (41_renderer.md R140, R145): two runs one after the other are one run. -/

namespace Sys2Proof.Machine

open Sys2Proof

theorem renderCommand_add {m n : Half} {s : State} (hready : s.smpReady = true) (hfits : m.toNat + n.toNat < 2 ^ 16)
    (c : Cfg) (op : SeqOp) (k : Kind) :
    renderCommand c op k (m + n) s = renderCommand c op k n (renderCommand c op k m s) := by
  have hready' : (renderCommand c op k m s).smpReady = true := (renderCommand_sameInputs ..).smpReady.trans hready
  rw [renderCommand_ready hready', renderCommand_ready hready, renderCommand_ready hready, BitVec.toNat_add_of_lt hfits,
    samples_add]

/-- Settles O21: the first run leaves the sink's level as it was. -/
theorem rendererRunsJoin : Obligations.RendererRunsJoin := by
  intro m n s t hready hfits
  refine ⟨fun ht => ?_, fun ht => ?_⟩
  · obtain rfl : renderCommand Config.cfg .rform .formant m s = t := by rw [exec_eq] at ht; injection ht
    rw [exec_eq, exec_eq, result, result, renderCommand_add hready hfits]
  · obtain rfl : renderCommand Config.cfg .rfric .fricative m s = t := by rw [exec_eq] at ht; injection ht
    rw [exec_eq, exec_eq, result, result, renderCommand_add hready hfits]

end Sys2Proof.Machine

/-! PROOF. The hard reset (60_exceptions.md R238; 70_reset_and_hazards.md R260). -/

namespace Sys2Proof.Machine

open Sys2Proof

/-- Settles O52: the step is the reset, which gives the block's part of the state the values of the spec. -/
theorem hardResetAbandonsTheCommand : Obligations.HardResetAbandonsTheCommand := by
  intro s hrst
  obtain ⟨hosc, hfosc, hfreqs, -⟩ := resetStateIsTheSpecs
  exact ⟨hardReset s, step_rst hrst, hosc, hfosc, hfreqs, rfl, rfl, rfl, rfl, rfl, rfl, rfl, rfl, rfl, rfl⟩

end Sys2Proof.Machine

/-! PROOF. Nothing stops the block (60_exceptions.md R230, R232): whatever the state, the step and every command answer a next
state. -/

namespace Sys2Proof.Machine

open Sys2Proof Sys2Proof.Spec

theorem acceptWord_total (w : Word) (s : State) : ∃ t, acceptWord w s = .next t := by
  cases hdecode : decode w with
  | command i => exact ⟨_, acceptWord_command hdecode s⟩
  | illegal k => exact ⟨_, acceptWord_illegal hdecode s⟩

theorem tickIdle_total (s : State) : ∃ t, tickIdle s = .next t := by
  cases hcmds : s.cmds with
  | nil => exact ⟨s, tickIdle_empty hcmds⟩
  | cons w ws => rw [tickIdle_cons hcmds]; exact acceptWord_total w _

theorem step_total (s : State) : ∃ t, step s = .next t := by
  cases hrst : s.rst with
  | true => exact ⟨_, step_rst hrst⟩
  | false =>
    cases hst : s.seq.st with
    | idle => rw [step_idle hrst hst]; exact tickIdle_total s
    | resp => exact ⟨_, step_resp hrst hst⟩
    | slice => exact ⟨_, step_slice hrst hst⟩
    | render => exact ⟨_, step_render hrst hst⟩
    | emit => exact ⟨_, step_emit hrst hst⟩

/-- Settles O9: the step by its states, a command by its arm. -/
theorem nothingStopsTheBlock : Obligations.NothingStopsTheBlock := ⟨step_total, fun i s => ⟨result i s, exec_eq i s⟩⟩

end Sys2Proof.Machine

/-! PROOF. The error action on a refused word (60_exceptions.md R232), and with it the step that accepts one: the acceptance
refuses every word that has a cause, with the cause its fields give. -/

namespace Sys2Proof.Machine

open Sys2Proof Sys2Proof.Spec

/-- The error action in the terms of the statement: the record, then the response to a word with opcode 0x3. -/
theorem raiseIll_eq_refused (k : Cause) (w : Word) (s : State) :
    raiseIll k w s = refused (causeCode k).toNat w s := by
  have hrecord : recordIll k w s =
      if s.status.ill = true then s
      else { s with
             status := { s.status with ill := true, cause := BitVec.ofNat 4 (causeCode k).toNat }, badcmd := w } := by
    rw [BitVec.ofNat_toNat, BitVec.setWidth_eq]; rfl
  have hopcode : opcodeOf w = 0x3#4 ↔ w.toNat / 2 ^ 28 = 0x3 := by rw [← BitVec.toNat_inj, opcodeOf_toNat]; rfl
  by_cases hop : opcodeOf w = 0x3#4
  · rw [raiseIll_rd hop, respond_eq_answered, hrecord, refused, if_pos (hopcode.mp hop)]
  · rw [raiseIll_other hop, hrecord, refused, if_neg (mt hopcode.mpr hop)]

/-- Settles O7: a word with a cause is one the acceptance refuses. -/
theorem refusedWordErrorAction : Obligations.RefusedWordErrorAction := by
  intro s w ws hrst hst hcmds hcause
  obtain ⟨k, hk, hrefused⟩ | ⟨hnone, -⟩ := acceptWord_cases w
  · calc step s = tickIdle s := step_idle hrst hst
      _ = acceptWord w (s.withCmds ws) := tickIdle_cons hcmds
      _ = .next (raiseIll k w (s.withCmds ws)) := hrefused _
      _ = .next (refused (wordCause Config.cfg.ampMax w.toNat) w { s with cmds := ws }) := by
        rw [raiseIll_eq_refused, hk]; rfl
  · exact absurd hnone hcause

end Sys2Proof.Machine

/-! PROOF. The phase relation of the buzz (42_envelope.md R166). An oscillator whose phase and frequency are both m times
those of the fundamental, modulo 2^16, is so again when both have advanced, for the factor distributes over the sum. -/

namespace Sys2Proof.Machine

open Sys2Proof Sys2Proof.Spec

/-- The oscillator `o` runs at the phase and the frequency of the harmonic number `m` of `f`. -/
structure HarmonicOf (m : Nat) (f o : Osc) : Prop where
  freq : o.freq = BitVec.ofNat 16 m * f.freq
  phase : o.phase = BitVec.ofNat 16 m * f.phase

/-- A multiple of a register's number, modulo 2^16, is a product of 16-bit words. -/
theorem ofNat_mul_toNat (m : Nat) (x : Half) : BitVec.ofNat 16 (m * x.toNat) = BitVec.ofNat 16 m * x := by
  rw [BitVec.ofNat_mul, BitVec.ofNat_toNat, BitVec.setWidth_eq]

theorem HarmonicOf.advance16 {m : Nat} {f o : Osc} (h : HarmonicOf m f o) :
    HarmonicOf m (advance16 f) (advance16 o) where
  freq := h.freq
  phase := by
    change o.phase + o.freq = BitVec.ofNat 16 m * (f.phase + f.freq)
    rw [h.phase, h.freq, BitVec.mul_add]

theorem HarmonicOf.oscLater {m : Nat} {f o : Osc} (h : HarmonicOf m f o) (n : Nat) :
    HarmonicOf m (oscLater n f) (oscLater n o) := by
  induction n with
  | zero => rw [oscLater_zero, oscLater_zero]; exact h
  | succ n ih => rw [← advance16_oscLater, ← advance16_oscLater]; exact ih.advance16

section
variable {s : State} (hsync : s.ctrl.psync = true) (c : Cfg) (k : Fin 3) (old : Osc)
include hsync

theorem harmonicPhase_eq_mul (m : Nat) : harmonicPhase m s old = BitVec.ofNat 16 m * (s.osc.get 0).phase := by
  rw [harmonicPhase, if_pos hsync, ofNat_mul_toNat]

theorem lowerOsc_harmonicOf :
    HarmonicOf (harmonicNumber (voiceBar s) (formantFreq s k)) (fundamental c s) (lowerOsc c s k old) where
  freq := ofNat_mul_toNat ..
  phase := harmonicPhase_eq_mul hsync ..

theorem upperOsc_harmonicOf :
    HarmonicOf (harmonicNumber (voiceBar s) (formantFreq s k) + 1) (fundamental c s) (upperOsc c s k old) where
  freq := ofNat_mul_toNat ..
  phase := harmonicPhase_eq_mul hsync ..

end

/-- Settles O27: `CENV buzz` makes the two oscillators harmonics of `OSC[0]`, and `RFORM` advances all three alike. -/
theorem synchronisedPhasesStaySynchronised : Obligations.SynchronisedPhasesStaySynchronised := by
  intro s t u n k hready hsync ht hu
  obtain rfl : cenvBuzz Config.cfg s = t := by rw [exec_eq] at ht; injection ht
  obtain rfl : renderCommand Config.cfg .rform .formant n (cenvBuzz Config.cfg s) = u := by
    rw [exec_eq] at hu; injection hu
  have hready' : (cenvBuzz Config.cfg s).smpReady = true := hready
  rw [renderCommand_ready hready', samples_formant_osc]
  simp only [Vec7.get_map, cenvBuzz_lower, cenvBuzz_upper, cenvBuzz_fundamental, ofNat_mul_toNat]
  exact ⟨((lowerOsc_harmonicOf hsync _ k _).oscLater _).phase, ((upperOsc_harmonicOf hsync _ k _).oscLater _).phase⟩

end Sys2Proof.Machine

/-! PROOF. The transition out of RENDER (43_segment_player.md R197) against the one-sample command of the renderer in use: both
are the renderer's one sample, which the command hands over and the transition puts into `SEQ.OUT`. -/

namespace Sys2Proof.Machine

open Sys2Proof Sys2Proof.Spec

/-- The command that renders one sample. -/
def oneSample : Kind → Instr
  | .formant => .rform 1#16
  | .fricative => .rfric 1#16
  | .silence => .rsil 1#16

theorem exec_oneSample {s : State} (hready : s.smpReady = true) (k : Kind) :
    exec (oneSample k) s = .next (sample Config.cfg k s) := by
  rw [exec_eq]
  cases k with
  | formant | fricative | silence => rw [oneSample, result, renderCommand_ready hready]; rfl

/-- A renderer neither reads nor writes the sink's level. -/
theorem sample_withSmpReady (c : Cfg) (k : Kind) (s : State) (b : Bool) :
    sample c k (s.withSmpReady b) = (sample c k s).withSmpReady b := by
  rw [sample_eq, sample_eq]; cases k <;> rfl

/-- The transition leaves to be handed over the sample that the renderer's own step hands over. -/
theorem sample_eq_tickRender (c : Cfg) (s : State) :
    sample c (seqKind s.seq) s =
      ((tickRender c s).withSeq s.seq).withSamples (s.samples ++ [(tickRender c s).seq.out]) := by
  rw [sample_eq, tickRender, renderState_eq]; rfl

theorem tickRender_seq (c : Cfg) (s : State) :
    (tickRender c s).seq = { s.seq with out := (tickRender c s).seq.out, st := .emit } := rfl

/-- Settles O50: the command of the statement is that of the sequencer's renderer. -/
theorem renderTransition : Obligations.RenderTransition := by
  intro s hrst hst
  refine ⟨tickRender Config.cfg s, step_render hrst hst, tickRender_seq _ s, ?_⟩
  have hrun : exec (oneSample (seqKind s.seq)) (s.withSmpReady true) =
      .next ((((tickRender Config.cfg s).withSeq s.seq).withSamples
        (s.samples ++ [(tickRender Config.cfg s).seq.out])).withSmpReady true) := by
    rw [exec_oneSample rfl, sample_withSmpReady, sample_eq_tickRender]
  rw [seqKind] at hrun
  cases hop : s.seq.op with
  | rform | rfric | rsil => rw [hop] at hrun; exact hrun
  | play =>
    rw [hop] at hrun
    cases hsrc : s.seq.src with
    | silence | aspiration | frication | buzz => rw [hsrc] at hrun; exact hrun

end Sys2Proof.Machine

/-! PROOF. The sticky flags (10_state.md R29): every operation but the two resets and the write of `STATUS` leaves a flag that
is set. -/

namespace Sys2Proof.Machine

open Sys2Proof Sys2Proof.Spec

/-- A flag set in `s` is set in `t`. -/
structure FlagsStay (s t : State) : Prop where
  ovf : s.status.ovf = true → t.status.ovf = true
  ill : s.status.ill = true → t.status.ill = true

theorem FlagsStay.of_eq {s t : State} (h : t.status = s.status) : FlagsStay s t :=
  ⟨fun hovf => h ▸ hovf, fun hill => h ▸ hill⟩

theorem FlagsStay.trans {s t u : State} (h : FlagsStay s t) (h' : FlagsStay t u) : FlagsStay s u :=
  ⟨fun hovf => h'.ovf (h.ovf hovf), fun hill => h'.ill (h.ill hill)⟩

/-- The block's own work leaves `ILL`, so only `OVF` is in question. -/
theorem SoundFrame.flagsStay {s t : State} (h : SoundFrame s t) (hovf : s.status.ovf = true → t.status.ovf = true) :
    FlagsStay s t := ⟨hovf, fun hill => h.ill.trans hill⟩

/-! ### The block's own work -/

theorem cenv_status (c : Cfg) (src : Source) (s : State) : (cenv c src s).status = s.status := by
  rw [cenv_frame]; rfl

theorem beginSlice_status (c : Cfg) (g : Segment) (i : Nat) (s : State) : (beginSlice c g i s).status = s.status :=
  cenv_status c g.src (s.withCur (sliceFreqs g i))

theorem renderState_flagsStay (c : Cfg) (k : Kind) (s : State) : FlagsStay s (renderState c k s) :=
  (renderState_soundFrame c k s).flagsStay fun h => by
    rw [renderState_eq, State.withStatus_status, h, Bool.true_or]

theorem samples_flagsStay (c : Cfg) (k : Kind) (n : Nat) (s : State) : FlagsStay s (samples c k n s) :=
  (samples_soundFrame c k n s).flagsStay (samples_ovf_sticky c k n)

theorem play_flagsStay (c : Cfg) (src : Source) (n : Half) (s : State) : FlagsStay s (play c src n s) :=
  (play_soundFrame c src n s).flagsStay fun h => by
    by_cases hsrc : src = .silence
    · rw [hsrc, play_silence]; exact samples_ovf_sticky c _ _ h
    · rw [play_sound hsrc]; exact playSlices_ovf_sticky c _ _ _ h

theorem renderCommand_flagsStay (c : Cfg) (op : SeqOp) (k : Kind) (n : Half) (s : State) :
    FlagsStay s (renderCommand c op k n s) := by
  unfold renderCommand
  split
  · exact .of_eq rfl
  split
  · exact samples_flagsStay ..
  · exact .of_eq rfl

theorem playCommand_flagsStay (c : Cfg) (src : Source) (n : Half) (s : State) :
    FlagsStay s (playCommand c src n s) := by
  unfold playCommand
  split
  · exact .of_eq rfl
  split
  · exact play_flagsStay ..
  · unfold startPlay; split <;> exact .of_eq rfl

/-! ### Host access -/

theorem respond_flagsStay (v : Word) (s : State) : FlagsStay s (respond v s) := by
  rw [respond_frame]; exact .of_eq rfl

theorem recordIll_flagsStay (k : Cause) (w : Word) (s : State) : FlagsStay s (recordIll k w s) := by
  cases hill : s.status.ill
  · rw [recordIll_first hill]; exact ⟨id, fun _ => rfl⟩
  · rw [recordIll_again hill]; exact .of_eq rfl

theorem raiseIll_flagsStay (k : Cause) (w : Word) (s : State) : FlagsStay s (raiseIll k w s) := by
  have hrec := recordIll_flagsStay k w s
  by_cases hop : opcodeOf w = 0x3#4
  · rw [raiseIll_rd hop]; exact hrec.trans (respond_flagsStay ..)
  · rw [raiseIll_other hop]; exact hrec

theorem writeLow_flagsStay {r : Reg} (hr : r ≠ .status) (imm : Half) (s : State) : FlagsStay s (writeLow r imm s) := by
  cases r with
  | status => exact absurd rfl hr
  | _ => exact .of_eq rfl

theorem wrh_flagsStay (reg : BitVec 8) (imm : Half) (s : State) : FlagsStay s (wrh reg imm s) := by
  obtain ⟨k, hk⟩ | ⟨r, hr⟩ := wrh_cases reg imm
  · rw [hk]; exact raiseIll_flagsStay ..
  · rw [hr]; cases r <;> exact .of_eq rfl

theorem rd_flagsStay (c : Cfg) (reg : BitVec 8) (s : State) : FlagsStay s (rd c reg s) := by
  obtain hk | ⟨r, -, hr⟩ := rd_cases c reg
  · rw [hk]; exact raiseIll_flagsStay ..
  · rw [hr]; exact respond_flagsStay ..

/-- From `s` to `t` the command `i` is a `WRL` of `STATUS` that clears the flags its immediate asks for (44_host_access.md
R211). -/
def ClearsByHost (i : Instr) (s t : State) : Prop :=
  ∃ imm, i = .wrl 0x01#8 imm ∧ imm.toNat < 4 ∧
    t.status.ovf = (s.status.ovf && !imm.getLsbD 1) ∧ t.status.ill = (s.status.ill && !imm.getLsbD 0)

theorem wrl_flags (reg : BitVec 8) (imm : Half) (s : State) :
    FlagsStay s (wrl Config.cfg reg imm s) ∨ ClearsByHost (.wrl reg imm) s (wrl Config.cfg reg imm s) := by
  obtain ⟨k, hk⟩ | ⟨r, hreg, hnone, hr⟩ := wrl_cases Config.cfg reg imm
  · rw [hk]; exact .inl (raiseIll_flagsStay ..)
  · rw [hr]
    by_cases hstatus : r = .status
    · subst hstatus
      obtain rfl : 0x01#8 = reg := regNumber_of_regOf hreg
      have himm : imm.toNat / 2 ^ 2 = 0 := lowWriteCause_status_iff.mp hnone
      rw [writeLow, clearStatus_eq]
      exact .inr ⟨imm, rfl, by omega, rfl, rfl⟩
    · exact .inl (writeLow_flagsStay hstatus imm s)

/-- The commands that can clear a flag. -/
theorem result_flags (i : Instr) (s : State) :
    FlagsStay s (result i s) ∨ i = .reset ∨ ClearsByHost i s (result i s) := by
  cases i with
  | nop => exact .inl (.of_eq rfl)
  | wrl reg imm => exact (wrl_flags reg imm s).imp_right .inr
  | wrh reg imm => exact .inl (wrh_flagsStay reg imm s)
  | rd reg => exact .inl (rd_flagsStay _ reg s)
  | play src n => exact .inl (playCommand_flagsStay _ src n s)
  | cenv src => exact .inl (.of_eq (cenv_status _ src s))
  | rform n => exact .inl (renderCommand_flagsStay _ _ _ n s)
  | rfric n => exact .inl (renderCommand_flagsStay _ _ _ n s)
  | rsil n => exact .inl (renderCommand_flagsStay _ _ _ n s)
  | reset => exact .inr (.inl rfl)

/-! ### The step -/

theorem tickResp_flagsStay (s : State) : FlagsStay s (tickResp s) := by
  unfold tickResp; split <;> exact .of_eq rfl

theorem tickSlice_flagsStay (c : Cfg) (s : State) : FlagsStay s (tickSlice c s) :=
  .of_eq (beginSlice_status c (seqSegment s.seq) s.seq.i.toNat s)

theorem tickRender_flagsStay (c : Cfg) (s : State) : FlagsStay s (tickRender c s) :=
  (renderState_flagsStay c (seqKind s.seq) s).trans (.of_eq rfl)

theorem tickEmit_flagsStay (s : State) : FlagsStay s (tickEmit s) := by
  unfold tickEmit; split <;> exact .of_eq rfl

/-- A step that is no hard reset leaves a flag that is set, or accepts the word of a command that can clear one. -/
theorem step_flags {s t : State} (h : step s = .next t) (hrst : s.rst = false) :
    FlagsStay s t ∨ s.seq.st = .idle ∧ ∃ w i, s.cmds.head? = some w ∧ decode w = .command i ∧
      (i = .reset ∨ ClearsByHost i s t) := by
  obtain ⟨hr, -⟩ | ⟨-, -, -, rfl⟩ | ⟨-, hst, w, ws, hw, ⟨i, hi, rfl⟩ | ⟨k, -, rfl⟩⟩ | ⟨-, -, rfl⟩ | ⟨-, -, rfl⟩ |
    ⟨-, -, rfl⟩ | ⟨-, -, rfl⟩ := step_cases h
  case inl => rw [hrst] at hr; contradiction
  case inr.inl => exact .inl (.of_eq rfl)
  case inr.inr.inl.inl =>
    obtain ⟨hovf, hill⟩ | hclears := result_flags i (s.withCmds ws)
    · exact .inl ⟨hovf, hill⟩
    · exact .inr ⟨hst, w, i, by rw [hw]; rfl, hi, hclears⟩
  case inr.inr.inl.inr =>
    obtain ⟨hovf, hill⟩ := raiseIll_flagsStay k w (s.withCmds ws)
    exact .inl ⟨hovf, hill⟩
  · exact .inl (tickResp_flagsStay s)
  · exact .inl (tickSlice_flagsStay _ s)
  · exact .inl (tickRender_flagsStay _ s)
  · exact .inl (tickEmit_flagsStay s)

/-- Write-one-to-clear read backwards. -/
theorem bit_of_cleared {old new bit : Bool} (h : new = (old && !bit)) (hold : old = true) (hnew : new = false) :
    bit = true := by
  rw [hold, hnew, Bool.true_and, Bool.false_eq, Bool.not_eq_false'] at h
  exact h

/-- The two bits of an immediate that a write of `STATUS` admits. -/
theorem statusImm_cases {imm : Half} (h : imm.toNat < 4) :
    (imm.getLsbD 1 = true → imm = 2#16 ∨ imm = 3#16) ∧ (imm.getLsbD 0 = true → imm = 1#16 ∨ imm = 3#16) := by
  obtain rfl | rfl | rfl | rfl : imm = 0#16 ∨ imm = 1#16 ∨ imm = 2#16 ∨ imm = 3#16 := by bv_omega
  all_goals decide

/-- Settles O58: the words are those of `RESET` and of a `WRL` of `STATUS` with the flag's bit set. -/
theorem stickyFlagsAreClearedByTheHostAlone : Obligations.StickyFlagsAreClearedByTheHostAlone := by
  intro s t hstep hrst
  obtain ⟨hovf, hill⟩ | ⟨hst, w, i, hw, hi, rfl | ⟨imm, rfl, himm, hovf, hill⟩⟩ := step_flags hstep hrst
  · exact ⟨fun h h' => absurd (hovf h) (by rw [h']; decide), fun h h' => absurd (hill h) (by rw [h']; decide)⟩
  · obtain rfl := word_of_decode_reset hi
    exact ⟨fun _ _ => ⟨hst, .inl hw⟩, fun _ _ => ⟨hst, .inl hw⟩⟩
  · obtain ⟨hbit1, hbit0⟩ := statusImm_cases himm
    obtain rfl := word_of_decode_wrl hi
    refine ⟨fun h h' => ⟨hst, .inr ?_⟩, fun h h' => ⟨hst, .inr ?_⟩⟩
    · obtain rfl | rfl := hbit1 (bit_of_cleared hovf h h')
      · exact .inl hw
      · exact .inr hw
    · obtain rfl | rfl := hbit0 (bit_of_cleared hill h h')
      · exact .inl hw
      · exact .inr hw

end Sys2Proof.Machine

/-! PROOF. The rows of the sequencer's table (43_segment_player.md R197) out of IDLE for a command that renders, with the sink
not ready, and out of RESP and EMIT when the other side accepts. -/

namespace Sys2Proof.Machine

open Sys2Proof Sys2Proof.Spec

/-! ### Out of IDLE -/

/-- Settles O20: each renderer command with a count above 0 starts its run. -/
theorem rendererStartsTheSequencer : Obligations.RendererStartsTheSequencer := by
  intro n s hbusy hn
  refine ⟨?_, ?_, ?_⟩
  all_goals rw [exec_eq, result, renderCommand_busy hbusy _ _ _ hn]; rfl

theorem startPlay_silence (c : Cfg) (n : Half) (s : State) :
    startPlay c .silence n s =
      s.withSeq { s.seq with
                  op := .play, src := .silence, n := n
                  cnt := BitVec.ofNat 32 (n.toNat * c.sliceLen), j := 0#32, st := .render } := if_pos rfl

theorem startPlay_sound {src : Source} (hsrc : src ≠ .silence) (c : Cfg) (n : Half) (s : State) :
    startPlay c src n s =
      s.withSeq { s.seq with
                  op := .play, src := src, n := n, i := 0#16
                  s := (latch src n s).s, e := (latch src n s).e, st := .slice } := if_neg hsrc

/-- Settles O36: the two branches of the start of a `PLAY`. -/
theorem playStartsTheSequencer : Obligations.PlayStartsTheSequencer := by
  intro src n s hbusy hn
  refine ⟨?_, fun hsrc => ?_⟩
  · rw [exec_eq, result, playCommand_busy hbusy _ _ hn, startPlay_silence]; rfl
  · rw [exec_eq, result, playCommand_busy hbusy _ _ hn, startPlay_sound hsrc]; rfl

/-! ### Out of RESP and EMIT -/

theorem tickResp_accepted {s : State} (h : s.rspReady = true) :
    tickResp s = deliver s.seq.rsp (s.withSeq { s.seq with st := .idle }) := if_pos h

theorem tickEmit_accepted {s : State} (h : s.smpReady = true) :
    tickEmit s = emit s.seq.out (s.withSeq (afterAccept s.seq)) := if_pos h

theorem afterAccept_sample {q : Seq} (h : q.j.toNat + 1 < q.cnt.toNat) :
    afterAccept q = { q with j := q.j + 1#32, st := .render } := if_pos h

theorem afterAccept_slice {q : Seq} (hlast : q.j.toNat + 1 = q.cnt.toNat)
    (h : q.op = .play ∧ q.src ≠ .silence ∧ q.i.toNat + 1 < q.n.toNat) :
    afterAccept q = { q with i := q.i + 1#16, st := .slice } := by
  rw [afterAccept, if_neg hlast.not_lt, if_pos h]

theorem afterAccept_idle {q : Seq} (hlast : q.j.toNat + 1 = q.cnt.toNat)
    (h : ¬(q.op = .play ∧ q.src ≠ .silence ∧ q.i.toNat + 1 < q.n.toNat)) :
    afterAccept q = { q with st := .idle } := by
  rw [afterAccept, if_neg hlast.not_lt, if_neg h]

/-- Settles O51: one clause per row. -/
theorem handOverTransitions : Obligations.HandOverTransitions := by
  refine ⟨fun s hrst hst hready => ?_, fun s hrst hst hready => ?_⟩
  · rw [step_resp hrst hst, tickResp_accepted hready]; rfl
  · refine ⟨emit s.seq.out (s.withSeq (afterAccept s.seq)), ?_, rfl, afterAccept_sample,
      fun hlast => ⟨afterAccept_slice hlast, afterAccept_idle hlast⟩⟩
    rw [step_emit hrst hst, tickEmit_accepted hready]

end Sys2Proof.Machine

/-! PROOF. The invariant at the state after reset (10_state.md R33): the base case of `everyStepKeepsTheInvariant`. -/

namespace Sys2Proof.Machine

open Sys2Proof

/-- Settles O56: the registers are sound after any reset, and the sequencer is in IDLE. -/
theorem resetHasTheInvariant : Obligations.ResetHasTheInvariant := by
  have hregs : RegsSound Config.cfg State.reset := resetBlock_regs Config.cfg State.reset
  exact hregs.invariant (AtRest.seqSound (.inl rfl) _)

end Sys2Proof.Machine
